-- ==== Sys2Proof/Word.lean ====
section
/-! DEFINITION. The words of the AFE tick core: every width the spec names, under one name each. -/

namespace Sys2Proof

/-- An operation word (R80), a response word (R91) or a modem transaction word. -/
abbrev Word := BitVec 32

/-- The width of `OUT` (R39), of the modem's output sample (R91) and of an `op` field (R80). -/
abbrev Byte := BitVec 8

/-- A modem handle (R35); 0 is the null handle. -/
abbrev Handle := BitVec 8

/-- A channel number (R27). -/
abbrev Channel := BitVec 4

/-- A raw converter result, `ADC_BITS` = 10 bits (R32). -/
abbrev Raw := BitVec 10

/-- A 16-bit value: `CNT`, `RELOAD` (`W` = 16), `SAMPLE`, `PIN_IN`, `DIN_DIS`, an `arg` field. -/
abbrev Half := BitVec 16

end Sys2Proof
end

