-- ==== Sys2Proof/Config.lean ====
section
/-! DEFINITION. What is fixed for the machine (parameters of R7) and the free values the spec leaves to
the environment: the schedule (R71), the raw conversion result (R124), the modem's answers (R66), the
host's words. A free value has no body, so nothing can be proved of it. -/

namespace Sys2Proof

/-- The OPEN parameters of R7. DESIGN CHOICE (log 3): they are carried in State, where no step writes them. -/
structure Params where
  /-- `F_BASE`, base clock frequency in hertz. -/
  fBase : Nat
  /-- `CORR`, the signed frequency-correction term in hertz. -/
  corr : Int
  /-- `N_CHAN`, the number of analog channels. -/
  nChan : Nat
  /-- `T_CONV`, the latency of a conversion; no rule uses it (R7, D9). -/
  tConv : Nat
  deriving DecidableEq, Repr

/-- The admissible parameters of R7: `F_BASE` is positive and 1 ≤ `N_CHAN` ≤ 16. -/
def Params.wf (p : Params) : Bool :=
  decide (0 < p.fBase) && decide (1 ≤ p.nChan) && decide (p.nChan ≤ 16)

/-- The spec's reference values (R7): instance REF. `T_CONV` has none there: DESIGN CHOICE 0 (log 3). -/
def Params.reference : Params := { fBase := 16000000, corr := 0, nChan := 6, tConv := 0 }

/-- Who moves in a step: the four agents of R9 that take steps, and the reset input (R230, log 11). -/
inductive Turn where
  | timer
  | converter
  | dispatcher
  | foreground
  | resetLine
  deriving DecidableEq, Repr, Inhabited

/-- The two shared flags (R37, R38). -/
inductive Flag where
  | txen
  | key
  deriving DecidableEq, Repr, Inhabited

/-- One flag write of a modem answer, `(TXEN, b)` or `(KEY, b)` (R67). -/
structure FlagWrite where
  flag : Flag
  value : Bool
  deriving DecidableEq, Repr, Inhabited

namespace Config

/-- `RATE`, the target sample rate in hertz. -/
def rate : Int := 9600

/-- The largest value of the 16-bit counter, 2^`W` − 1 (R8). -/
def cntMax : Int := 65535

/-- `SHIFT`. -/
def shift : Nat := 2

/-- `MIDSCALE`. -/
def midscale : Int := 128

/-- `DAC_MASK`. -/
def dacMask : Byte := 0xF0#8

/-- `KEY_MASK`; derived by the spec from the two idle constants (D20). -/
def keyMask : Byte := 0x08#8

/-- `IDLE_QUIET` = 128. -/
def idleQuiet : Byte := 0x80#8

/-- `IDLE_KEYED` = 136. -/
def idleKeyed : Byte := 0x88#8

/-- Free value (log 1): who moves when the agenda is empty; every schedule is admitted (R71). -/
opaque freeTurn : Nat → Turn

/-- Free value (log 10): the word the host offers when no word is queued. -/
opaque freeHostWord : Nat → Word

/-- Free value (log 9): the raw result of a conversion, any of 0 to 1023 (R124). -/
opaque freeRaw : Nat → Raw

/-- Free value (log 11): what `SAMPLE` holds after a RESET step (R230). -/
opaque freeSample : Nat → Half

/-- Free value (log 7): the modem's answer to NEWIN, a function of a fresh counter, `HIST`, `hd` and `s`. -/
opaque oracleNewin : Nat → List Word → Handle → Int → List FlagWrite

/-- Free value (log 7): the modem's answer to REQOUT, a function of a fresh counter, `HIST` and `hd`. -/
opaque oracleReqout : Nat → List Word → Handle → Byte × List FlagWrite

end Config

end Sys2Proof
end

