-- ==== Sys2Proof/Syntax.lean ====
section
/-! DEFINITION. The eighteen operations of AFE-OPS version 1 (R84), one constructor per row of the
opcode table, with the operands of R83. -/

namespace Sys2Proof

/-- One operation with its operands. -/
inductive Instr where
  /-- INIT `ch`, `hd` (R186). -/
  | init (ch : Channel) (hd : Handle)
  /-- STXE `b` (R161). -/
  | stxe (b : Bool)
  /-- SKEY `b` (R162). -/
  | skey (b : Bool)
  /-- LTXE (R163). -/
  | ltxe
  /-- LKEY (R164). -/
  | lkey
  /-- CFGCLK `d` (R102). -/
  | cfgclk (d : Half)
  /-- CFGADC `ch` (R121). -/
  | cfgadc (ch : Channel)
  /-- WROUT `v` (R141). -/
  | wrout (v : Byte)
  /-- RDIN (R125). -/
  | rdin
  /-- ACK (R173). -/
  | ack
  /-- CAPT (R126). -/
  | capt
  /-- PLAY (R142). -/
  | play
  /-- NEWIN `hd`, `s` (R127); `s` is a signed integer, sent as `tc_16(s)`. -/
  | newin (hd : Handle) (s : Int)
  /-- REQOUT `hd` (R143). -/
  | reqout (hd : Handle)
  /-- CLK (R104). -/
  | clk
  /-- TRIG (R123). -/
  | trig
  /-- CONV `raw` (R124). -/
  | conv (raw : Raw)
  /-- DISP (R171). -/
  | disp
  deriving DecidableEq, Repr

end Sys2Proof
end

