-- ==== Sys2Proof/WellFormed.lean ====
section
/-! DEFINITION. Which instructions have a word. Every operand but one is a bit field of its own width, so
only the signed sample of NEWIN can be out of range (R83). -/

namespace Sys2Proof

/-- The samples that `tc_16` is defined for, −32768 to 32767 (R11, R83). -/
def sampleFits (s : Int) : Bool := decide (-32768 ≤ s) && decide (s ≤ 32767)

/-- The instruction has an operation word. -/
def Instr.wf : Instr → Bool
  | .newin _ s => sampleFits s
  | .init _ _ | .stxe _ | .skey _ | .ltxe | .lkey | .cfgclk _ | .cfgadc _ | .wrout _ | .rdin | .ack
  | .capt | .play | .reqout _ | .clk | .trig | .conv _ | .disp => true

end Sys2Proof
end

