-- ==== Sys2Proof/Decode.lean ====
section
/-! DEFINITION. The opcode table of R84, the decoder (total, rejecting by name) and the encoder. -/

namespace Sys2Proof

/-- The eighteen mnemonics of R84. -/
inductive Op where
  | init | stxe | skey | ltxe | lkey
  | cfgclk | cfgadc | wrout | rdin
  | ack | capt | play
  | newin | reqout
  | clk | trig | conv | disp
  deriving DecidableEq, Repr

/-- The five classes of R81: host command, HAL primitive, micro-operation, modem transaction, event. -/
inductive OpClass where
  | host | primitive | micro | modem | event
  deriving DecidableEq, Repr

/-- One row of R84: a word `w` spells the operation exactly when `w & mask = pattern`. -/
structure Row where
  op : Op
  pattern : Word
  mask : Word
  deriving DecidableEq, Repr

/-- The opcode map of R84. -/
def opcodeTable : List Row :=
  [ ⟨.init,   0x01000000#32, 0xFF00FFF0#32⟩,
    ⟨.stxe,   0x02000000#32, 0xFFFFFFFE#32⟩,
    ⟨.skey,   0x03000000#32, 0xFFFFFFFE#32⟩,
    ⟨.ltxe,   0x04000000#32, 0xFFFFFFFF#32⟩,
    ⟨.lkey,   0x05000000#32, 0xFFFFFFFF#32⟩,
    ⟨.cfgclk, 0x10000000#32, 0xFFFF0000#32⟩,
    ⟨.cfgadc, 0x11000000#32, 0xFFFFFFF0#32⟩,
    ⟨.wrout,  0x12000000#32, 0xFFFFFF00#32⟩,
    ⟨.rdin,   0x13000000#32, 0xFFFFFFFF#32⟩,
    ⟨.ack,    0x20000000#32, 0xFFFFFFFF#32⟩,
    ⟨.capt,   0x21000000#32, 0xFFFFFFFF#32⟩,
    ⟨.play,   0x22000000#32, 0xFFFFFFFF#32⟩,
    ⟨.newin,  0x30000000#32, 0xFF000000#32⟩,
    ⟨.reqout, 0x31000000#32, 0xFF00FFFF#32⟩,
    ⟨.clk,    0x40000000#32, 0xFFFFFFFF#32⟩,
    ⟨.trig,   0x41000000#32, 0xFFFFFFFF#32⟩,
    ⟨.conv,   0x42000000#32, 0xFFFFFC00#32⟩,
    ⟨.disp,   0x43000000#32, 0xFFFFFFFF#32⟩ ]

/-- The `op` field, bits 31:24 (R80). -/
def opField (w : Word) : Byte := w.extractLsb' 24 8

/-- The `h` field, bits 23:16 (R80). -/
def hField (w : Word) : Handle := w.extractLsb' 16 8

/-- The `arg` field, bits 15:0 (R80). -/
def argField (w : Word) : Half := w.extractLsb' 0 16

/-- Operand assembly (R83): nothing is scaled, and only the sample of NEWIN is signed. -/
def assemble (o : Op) (w : Word) : Instr :=
  match o with
  | .init   => .init (w.extractLsb' 0 4) (hField w)
  | .stxe   => .stxe (w.getLsbD 0)
  | .skey   => .skey (w.getLsbD 0)
  | .ltxe   => .ltxe
  | .lkey   => .lkey
  | .cfgclk => .cfgclk (argField w)
  | .cfgadc => .cfgadc (w.extractLsb' 0 4)
  | .wrout  => .wrout (w.extractLsb' 0 8)
  | .rdin   => .rdin
  | .ack    => .ack
  | .capt   => .capt
  | .play   => .play
  | .newin  => .newin (hField w) (argField w).toInt
  | .reqout => .reqout (hField w)
  | .clk    => .clk
  | .trig   => .trig
  | .conv   => .conv (w.extractLsb' 0 10)
  | .disp   => .disp

/-- Why a word spells no operation (R85, R93). -/
inductive DecodeError where
  /-- The `op` field is a reserved code (R93). -/
  | reservedOp (op : Byte)
  /-- The `op` field is a row's, but a must-be-zero bit is set (R85). -/
  | mustBeZero (op : Byte)
  deriving DecidableEq, Repr

/-- What a word decodes to. -/
inductive Decoded where
  | ok (i : Instr)
  | error (e : DecodeError)
  deriving DecidableEq, Repr

/-- The row a word matches, if any (R84). -/
def lookup (w : Word) : Option Row :=
  opcodeTable.find? fun r => w &&& r.mask == r.pattern

/-- The row's operation code is `op`. -/
def isOpcode (op : Byte) : Bool :=
  opcodeTable.any fun r => opField r.pattern == op

/-- The decoder: total on every 32-bit word (R93, R94). -/
def decode (w : Word) : Decoded :=
  match lookup w with
  | some r => .ok (assemble r.op w)
  | none =>
    if isOpcode (opField w) then .error (.mustBeZero (opField w))
    else .error (.reservedOp (opField w))

/-- The N-bit two's-complement pattern `tc_16` of R11. -/
def tc16 (i : Int) : Half := BitVec.ofInt 16 i

/-- A word from its three fields: `op` 31:24, `h` 23:16, `arg` 15:0 (R80). -/
def mkWord (op : Byte) (h : Handle) (arg : Half) : Word := op ++ h ++ arg

/-- The operation word of an instruction (R83, R95). -/
def encode : Instr → Word
  | .init ch hd => mkWord 0x01#8 hd (ch.setWidth 16)
  | .stxe b     => mkWord 0x02#8 0#8 ((BitVec.ofBool b).setWidth 16)
  | .skey b     => mkWord 0x03#8 0#8 ((BitVec.ofBool b).setWidth 16)
  | .ltxe       => mkWord 0x04#8 0#8 0#16
  | .lkey       => mkWord 0x05#8 0#8 0#16
  | .cfgclk d   => mkWord 0x10#8 0#8 d
  | .cfgadc ch  => mkWord 0x11#8 0#8 (ch.setWidth 16)
  | .wrout v    => mkWord 0x12#8 0#8 (v.setWidth 16)
  | .rdin       => mkWord 0x13#8 0#8 0#16
  | .ack        => mkWord 0x20#8 0#8 0#16
  | .capt       => mkWord 0x21#8 0#8 0#16
  | .play       => mkWord 0x22#8 0#8 0#16
  | .newin hd s => mkWord 0x30#8 hd (tc16 s)
  | .reqout hd  => mkWord 0x31#8 hd 0#16
  | .clk        => mkWord 0x40#8 0#8 0#16
  | .trig       => mkWord 0x41#8 0#8 0#16
  | .conv raw   => mkWord 0x42#8 0#8 (raw.setWidth 16)
  | .disp       => mkWord 0x43#8 0#8 0#16

/-- The mnemonic of an instruction. -/
def Instr.op : Instr → Op
  | .init _ _  => .init
  | .stxe _    => .stxe
  | .skey _    => .skey
  | .ltxe      => .ltxe
  | .lkey      => .lkey
  | .cfgclk _  => .cfgclk
  | .cfgadc _  => .cfgadc
  | .wrout _   => .wrout
  | .rdin      => .rdin
  | .ack       => .ack
  | .capt      => .capt
  | .play      => .play
  | .newin _ _ => .newin
  | .reqout _  => .reqout
  | .clk       => .clk
  | .trig      => .trig
  | .conv _    => .conv
  | .disp      => .disp

/-- The class of an operation (R81). -/
def Op.cls : Op → OpClass
  | .init | .stxe | .skey | .ltxe | .lkey => .host
  | .cfgclk | .cfgadc | .wrout | .rdin => .primitive
  | .ack | .capt | .play => .micro
  | .newin | .reqout => .modem
  | .clk | .trig | .conv | .disp => .event

/-- What the host port makes of a word: the five class-H rows only, all else is illegal (R92). -/
def decodeHost (w : Word) : Option Instr :=
  match decode w with
  | .ok i => if i.op.cls = .host then some i else none
  | .error _ => none

/-- The 32-bit word the host's numbering of `spec/opcode_table.json` gives: `nbits` bits of `w`, zeros above. -/
def tableWord (nbits w : Nat) : Word := BitVec.ofNat 32 (w % 2 ^ nbits)

/-- The instruction the decoder reads from a word numbered as the opcode table numbers it. -/
def decodeTableWord (nbits w : Nat) : Option Instr :=
  match decode (tableWord nbits w) with
  | .ok i => some i
  | .error _ => none

end Sys2Proof
end

