-- ==== Sys2Proof/Machine/State.lean ====
section
/-! DEFINITION. The state of the AFE tick core as plain data (10_state R20 to R46), the machine at reset
(R45, R230), the causes of `FAULT` (R201), and the two reasons a step can stop. -/

namespace Sys2Proof.Machine

/-- Why a step stops with a fault. -/
inductive Fault where
  /-- Raised by CLK on a tick that finds the previous tick's service unfinished (R207). Safe: the spec
  does not define the state after it, and the model proves nothing of it. -/
  | overrun
  deriving DecidableEq, Repr

/-- Why a step has no meaning. -/
inductive Refusal where
  /-- Raised by `exec` for an instruction that has no meaning yet; no arm does. Safe. -/
  | notModelled (mnemonic : String)
  /-- Raised by `step` when `env.inner` holds a word that spells no operation; no step fills that slot,
  so no run from reset meets it (log 12). Safe. -/
  | innerReserved (e : DecodeError)
  deriving DecidableEq, Repr

/-- The detectable fault causes, one bit of `FAULT` each (R42, R201). -/
inductive Cause where
  | cfgModem
  | cfgChannel
  | cfgDivisor
  | cfgReinit
  | illCmd
  deriving DecidableEq, Repr

/-- What the signals of R46 last carried, and RDIN's internal response (R91). Latches of the model (log 6). -/
structure Ports where
  /-- `HRSP`, the response of LTXE and LKEY. -/
  hrsp : Word
  /-- `MOUT`, the last modem transaction word. -/
  mout : Word
  /-- The sample of `MRSP`, the modem's answer to the last REQOUT. -/
  mrspSample : Byte
  /-- The flag writes of `MRSP`, of the modem's last answer. -/
  mrspWrites : List FlagWrite
  /-- The 16-bit value the last RDIN returned. -/
  rdinResult : Half
  deriving DecidableEq, Repr

/-- The environment's side: inputs not yet taken, oldest first. When a list is empty the value comes from
`Config`, applied to `draws`. The model's own fields (log 17). -/
structure Env where
  /-- An inner operation word to be run alone by the next step; set only from outside (log 12). -/
  inner : Option Word
  /-- Who moves in the coming steps (log 1). -/
  agenda : List Turn
  /-- Host words offered on `HCMD` and not yet accepted (R64, U9). -/
  hcmd : List Word
  /-- Raw values the ANALOG agent will supply (R124). -/
  ain : List Raw
  /-- The modem's coming answers to NEWIN (R66). -/
  newins : List (List FlagWrite)
  /-- The modem's coming answers to REQOUT (R66). -/
  reqouts : List (Byte × List FlagWrite)
  /-- How many free values have been taken. -/
  draws : Nat
  deriving DecidableEq, Repr

/-- The whole machine. -/
structure State where
  /-- `RELOAD` (R21). -/
  reload : Half
  /-- `CNT` (R22). -/
  cnt : Half
  /-- `TMR_EN` (R23). -/
  tmrEn : Bool
  /-- `TICKF` (R24). -/
  tickf : Bool
  /-- `ADC_EN` (R25). -/
  adcEn : Bool
  /-- `ADC_REF` (R26). -/
  adcRef : Bool
  /-- `CHAN` (R27). -/
  chan : Channel
  /-- `ADC_ATE` (R28). -/
  adcAte : Bool
  /-- `ADC_IE` (R29). -/
  adcIe : Bool
  /-- `PIN_IN` (R30). -/
  pinIn : Half
  /-- `DIN_DIS` (R30). -/
  dinDis : Half
  /-- `ADC_BUSY` (R31). -/
  adcBusy : Bool
  /-- `ADC_DATA` (R32). -/
  adcData : Raw
  /-- `ADCF` (R33). -/
  adcf : Bool
  /-- `SAMPLE` (R34), two's complement. -/
  sample : Half
  /-- `MODEM` (R35). -/
  modem : Handle
  /-- `INITED` (R36). -/
  inited : Bool
  /-- `TXEN` (R37). -/
  txen : Bool
  /-- `KEY` (R38). -/
  key : Bool
  /-- `OUT` (R39). -/
  out : Byte
  /-- `OUT_EN` (R40). -/
  outEn : Bool
  /-- `SEQ` (R41): 0 idle, 1 ACK next, 2 CAPT next, 3 PLAY next. -/
  seq : BitVec 2
  /-- `FAULT` (R42), sticky. -/
  fault : BitVec 5
  /-- `HIST` (R70), oldest word first. -/
  hist : List Word
  /-- What the ports last carried (R46). -/
  ports : Ports
  /-- The OPEN parameters (R7); no step writes them. -/
  params : Params
  /-- The environment's inputs. -/
  env : Env
  deriving DecidableEq, Repr

/-- The ports before anything was carried. DESIGN CHOICE (log 6). -/
def Ports.idle : Ports :=
  { hrsp := 0#32, mout := 0#32, mrspSample := 0#8, mrspWrites := [], rdinResult := 0#16 }

/-- An environment with nothing queued. DESIGN CHOICE (log 17). -/
def Env.empty : Env :=
  { inner := none, agenda := [], hcmd := [], ain := [], newins := [], reqouts := [], draws := 0 }

/-- The reset state of R45 for any parameters and any value of the two unspecified registers (R230). -/
def State.resetWith (p : Params) (adcData : Raw) (sample : Half) : State :=
  { reload := 0#16, cnt := 0#16, tmrEn := false, tickf := false,
    adcEn := false, adcRef := false, chan := 0#4, adcAte := false, adcIe := false,
    pinIn := 0#16, dinDis := 0#16, adcBusy := false, adcData := adcData, adcf := false,
    sample := sample, modem := 0#8, inited := false, txen := false, key := false,
    out := 0#8, outEn := false, seq := 0#2, fault := 0#5, hist := [],
    ports := Ports.idle, params := p, env := Env.empty }

/-- The machine right after reset: instance REF (log 3), `ADC_DATA` and `SAMPLE` zero (logs 4, 5). -/
def State.reset : State := State.resetWith Params.reference 0#10 0#16

end Sys2Proof.Machine
end

