-- ==== Sys2Proof/Machine/Operands.lean ====
section
/-! DEFINITION. The integer computations of the block (R13): the divisor, the capture transform, the
playback byte, the pins, the micro-ROM. -/

namespace Sys2Proof.Machine

/-- `Q = trunc_div(F_BASE + CORR, RATE)` over the integers, rounded toward zero (R8, R101). -/
def divisorQ (p : Params) : Int := Int.tdiv ((p.fBase : Int) + p.corr) Config.rate

/-- `RELOAD_CONST = Q - 1`, possibly negative (R8, R101). -/
def reloadConst (p : Params) : Int := divisorQ p - 1

/-- `RELOAD_CONST` fits the counter: 0 ≤ `RELOAD_CONST` ≤ 65535 (R8, R187). -/
def reloadFits (p : Params) : Bool :=
  decide (0 ≤ reloadConst p) && decide (reloadConst p ≤ Config.cntMax)

/-- The 16-bit operand INIT hands to CFGCLK (R188). -/
def reloadWord (p : Params) : Half := BitVec.ofInt 16 (reloadConst p)

/-- The bit of channel `ch` in `PIN_IN` and `DIN_DIS` (R30). -/
def chanBit (ch : Channel) : Half := 1#16 <<< ch.toNat

/-- The recentered sample `int(raw >> SHIFT) - MIDSCALE` (R126, R128); `raw` is RDIN's 16-bit result. -/
def recenter (raw : Half) : Int := ((raw >>> Config.shift).toNat : Int) - Config.midscale

/-- The modulating byte `(v & DAC_MASK) | KEY_MASK` (R142, R145). -/
def modulatingByte (v : Byte) : Byte := (v &&& Config.dacMask) ||| Config.keyMask

/-- The idle byte chosen by the transmitter-key flag (R142, R144). -/
def idleByte (key : Bool) : Byte := if key then Config.idleKeyed else Config.idleQuiet

/-- The response layout of LTXE and LKEY: bit 0 the flag, bits 31:1 zero (R91). -/
def flagResponse (b : Bool) : Word := (BitVec.ofBool b).setWidth 32

/-- The pins `DAC[3:0]`: `OUT[7:4]` when `OUT_EN` = 1, else not driven (R39, R40, R46). -/
def dacPins (s : State) : Option (BitVec 4) :=
  if s.outEn then some (s.out.extractLsb' 4 4) else none

/-- The pin `PTT`: `OUT[3]` when `OUT_EN` = 1, else not driven (R39, R40, R46). -/
def pttPin (s : State) : Option Bool :=
  if s.outEn then some (s.out.getLsbD 3) else none

/-- The micro-ROM (R90). No operation writes it (R76). -/
def microRom : List Word := [0x20000000#32, 0x21000000#32, 0x22000000#32]

/-- The fetch `ROM[SEQ - 1]`; nothing is fetched while `SEQ` = 0 (R172). -/
def romFetch (seq : BitVec 2) : Option Word :=
  if seq = 0#2 then none else microRom[seq.toNat - 1]?

end Sys2Proof.Machine
end

