-- ==== Sys2Proof/Machine/Flags.lean ====
section
/-! DEFINITION. The flag and condition computations: the bits of `FAULT`, the guards of the agents, the
tick and overrun conditions, and the effect of a list of flag writes. -/

namespace Sys2Proof.Machine

/-- The code of a cause: its bit number in `FAULT` (R42, R201). -/
def Cause.code : Cause → Nat
  | .cfgModem => 0
  | .cfgChannel => 1
  | .cfgDivisor => 2
  | .cfgReinit => 3
  | .illCmd => 4

/-- The bit of a cause in `FAULT`. -/
def Cause.bit (c : Cause) : BitVec 5 := 1#5 <<< c.code

/-- `HRDY`: the host port accepts a command word only when `SEQ` = 0 (R46, R64). -/
def hrdy (s : State) : Bool := s.seq == 0#2

/-- The guard of DISP: `ADCF` and `ADC_IE` set and `SEQ` = 0 (R171). -/
def dispReady (s : State) : Bool := s.adcf && s.adcIe && s.seq == 0#2

/-- The next edge is a tick: the counter runs and `CNT` = `RELOAD` (R104). -/
def isTick (s : State) : Bool := s.tmrEn && s.cnt == s.reload

/-- The service of the previous tick has not reached the end of PLAY (R207). -/
def serviceOpen (s : State) : Bool := s.tickf || s.adcBusy || s.adcf || s.seq != 0#2

/-- The value flag `f` has after a list of flag writes applied in order to `b` (R67). -/
def writesTo (f : Flag) (b : Bool) : List FlagWrite → Bool
  | [] => b
  | fw :: rest => writesTo f (if fw.flag = f then fw.value else b) rest

/-- The first of INIT's four checks that fails, in the order of R187. -/
def initCause (ch : Channel) (hd : Handle) (s : State) : Option Cause :=
  if hd = 0#8 then some .cfgModem
  else if s.params.nChan ≤ ch.toNat then some .cfgChannel
  else if reloadFits s.params = false then some .cfgDivisor
  else if s.inited && (ch != s.chan || hd != s.modem) then some .cfgReinit
  else none

end Sys2Proof.Machine
end

