-- ==== Sys2Proof/Machine/Ops.lean ====
section
/-! DEFINITION. The named operations over the state: the history, the environment's inputs, recording a
fault, entering and leaving the dispatcher, and the inner operations that INIT, CAPT, PLAY and a ticking
CLK are made of. There is no addressable memory (R60), so there is no memory operation. -/

namespace Sys2Proof.Machine

/-- `record(op)`: append a word to `HIST` (R11, R70). -/
def recordWord (w : Word) (s : State) : State := { s with hist := s.hist ++ [w] }

/-- `record(op)` for a decoded operation. -/
def record (i : Instr) (s : State) : State := recordWord (encode i) s

/-- Record a detectable fault: its sticky bit and nothing else (R42, R200). The machine goes on. -/
def raiseFault (c : Cause) (s : State) : State := { s with fault := s.fault ||| c.bit }

/-- An effect behind a guard: with the guard false the agent is held and nothing changes (R10, log 2). -/
def guarded (g : Bool) (effect : State → State) (s : State) : Host.Outcome State Fault Refusal :=
  .next (if g then effect s else s)

/-- Entry into the interrupt context (R171, R212): the request is consumed, `SEQ` selects micro-ROM word
0, nothing is saved. -/
def enterDispatcher (s : State) : State := { s with adcf := false, seq := 1#2 }

/-- Return to the foreground (R213): the last action of PLAY; nothing is restored. -/
def leaveDispatcher (s : State) : State := { s with seq := 0#2 }

/-! ### Inputs of the environment: the oldest queued value, else a free value -/

/-- Count one free value taken. -/
def Env.countDraw (e : Env) : Env := { e with draws := e.draws + 1 }

/-- Who moves next (R71, log 1). -/
def Env.turn (e : Env) : Turn :=
  match e.agenda with
  | t :: _ => t
  | [] => Config.freeTurn e.draws

/-- The environment after the choice of who moves. -/
def Env.popTurn (e : Env) : Env :=
  match e.agenda with
  | _ :: rest => { e with agenda := rest }
  | [] => e.countDraw

/-- The word the host offers (R64, log 10). -/
def Env.hostWord (e : Env) : Word :=
  match e.hcmd with
  | w :: _ => w
  | [] => Config.freeHostWord e.draws

/-- The environment after a host word was accepted. -/
def Env.popHostWord (e : Env) : Env :=
  match e.hcmd with
  | _ :: rest => { e with hcmd := rest }
  | [] => e.countDraw

/-- The raw value drawn for a conversion (R124, log 9). -/
def Env.raw (e : Env) : Raw :=
  match e.ain with
  | r :: _ => r
  | [] => Config.freeRaw e.draws

/-- The environment after a raw value was drawn. -/
def Env.popRaw (e : Env) : Env :=
  match e.ain with
  | _ :: rest => { e with ain := rest }
  | [] => e.countDraw

/-- The modem's answer to NEWIN, `oracle_newin(HIST, hd, s)` (R66, R127, log 7). -/
def Env.newinAnswer (e : Env) (hist : List Word) (hd : Handle) (x : Int) : List FlagWrite :=
  match e.newins with
  | fw :: _ => fw
  | [] => Config.oracleNewin e.draws hist hd x

/-- The environment after an answer to NEWIN. -/
def Env.popNewin (e : Env) : Env :=
  match e.newins with
  | _ :: rest => { e with newins := rest }
  | [] => e.countDraw

/-- The modem's answer to REQOUT, `oracle_reqout(HIST, hd)` (R66, R143, log 7). -/
def Env.reqoutAnswer (e : Env) (hist : List Word) (hd : Handle) : Byte × List FlagWrite :=
  match e.reqouts with
  | a :: _ => a
  | [] => Config.oracleReqout e.draws hist hd

/-- The environment after an answer to REQOUT. -/
def Env.popReqout (e : Env) : Env :=
  match e.reqouts with
  | _ :: rest => { e with reqouts := rest }
  | [] => e.countDraw

/-! ### The inner operations -/

/-- Apply a modem answer's flag writes in list order (R67). -/
def applyWrites (l : List FlagWrite) (s : State) : State :=
  { s with txen := writesTo .txen s.txen l, key := writesTo .key s.key l }

/-- CFGCLK `d` (R102). -/
def setClock (d : Half) (s : State) : State :=
  record (.cfgclk d) { s with reload := d, cnt := 0#16, tmrEn := true }

/-- CFGADC `ch` (R121). -/
def setConverter (ch : Channel) (s : State) : State :=
  record (.cfgadc ch)
    { s with adcRef := true, chan := ch, pinIn := s.pinIn ||| chanBit ch,
             dinDis := s.dinDis ||| chanBit ch, adcAte := true, adcIe := true, adcEn := true }

/-- TRIG (R123): a conversion starts when the converter is enabled and auto-triggered. -/
def trigger (s : State) : State :=
  if s.adcEn && s.adcAte then record .trig { s with adcBusy := true } else s

/-- CONV `raw` once its guard holds (R124). -/
def converted (raw : Raw) (s : State) : State :=
  record (.conv raw) { s with adcData := raw, adcBusy := false, adcf := true }

/-- RDIN (R125): the response is `zext_16(ADC_DATA)`; nothing else changes but the history. -/
def readInput (s : State) : State :=
  record .rdin { s with ports := { s.ports with rdinResult := s.adcData.setWidth 16 } }

/-- NEWIN `hd`, `x` (R127): the word goes out on `MOUT`, the modem's flag writes come back on `MRSP`. -/
def sendSample (hd : Handle) (x : Int) (s : State) : State :=
  let s1 := record (.newin hd x) s
  { s1 with
    ports := { s1.ports with
      mout := encode (.newin hd x)
      mrspWrites := s1.env.newinAnswer s1.hist hd x }
    env := s1.env.popNewin }

/-- REQOUT `hd` (R143): the word goes out on `MOUT`, a sample and flag writes come back on `MRSP`. -/
def askSample (hd : Handle) (s : State) : State :=
  let s1 := record (.reqout hd) s
  { s1 with
    ports := { s1.ports with
      mout := encode (.reqout hd)
      mrspSample := (s1.env.reqoutAnswer s1.hist hd).1
      mrspWrites := (s1.env.reqoutAnswer s1.hist hd).2 }
    env := s1.env.popReqout }

/-- WROUT `v` (R141): all eight bits of `OUT` in one write. -/
def writeOutput (v : Byte) (s : State) : State := record (.wrout v) { s with out := v }

/-- The RESET step (R230, log 11): every register at its reset value, fresh values in the two unspecified
ones, a new history. The parameters and the queued inputs are not registers and stay. -/
def resetLine (s : State) : State :=
  { State.resetWith s.params (Config.freeRaw s.env.draws) (Config.freeSample s.env.draws) with
    env := s.env.countDraw }

end Sys2Proof.Machine
end

