-- ==== Sys2Proof/Machine/Capture.lean ====
section
/-! DEFINITION. adc_capture_synchronizer: CFGADC, TRIG, CONV, RDIN, CAPT, NEWIN (41_capture_path). -/

namespace Sys2Proof.Machine

/-- CFGADC `ch` (R121). No guard of its own. -/
def execCfgadc (ch : Channel) (s : State) : Host.Outcome State Fault Refusal :=
  .next (setConverter ch s)

/-- TRIG (R123). -/
def execTrig (s : State) : Host.Outcome State Fault Refusal :=
  .next (trigger s)

/-- CONV `raw` (R124). Guard: `ADC_BUSY` = 1. -/
def execConv (raw : Raw) (s : State) : Host.Outcome State Fault Refusal :=
  guarded s.adcBusy (converted raw) s

/-- RDIN (R125). -/
def execRdin (s : State) : Host.Outcome State Fault Refusal :=
  .next (readInput s)

/-- NEWIN `hd`, `x` (R127). The returned flag writes are applied by CAPT, not here. -/
def execNewin (hd : Handle) (x : Int) (s : State) : Host.Outcome State Fault Refusal :=
  .next (sendSample hd x s)

/-- The body of CAPT (R126): read, recenter, hand to the modem, apply its flag writes, `SEQ <- 3`. -/
def captured (s : State) : State :=
  let s1 := readInput (record .capt s)
  let x := recenter s1.ports.rdinResult
  let s2 := sendSample s1.modem x { s1 with sample := tc16 x }
  { applyWrites s2.ports.mrspWrites s2 with seq := 3#2 }

/-- CAPT (R126). Guard: `SEQ` = 2. -/
def execCapt (s : State) : Host.Outcome State Fault Refusal :=
  guarded (s.seq == 2#2) captured s

end Sys2Proof.Machine
end

