-- ==== Sys2Proof/Machine/Dispatcher.lean ====
section
/-! DEFINITION. interrupt_dispatcher: DISP and ACK (44_dispatcher). CAPT and PLAY stand in Capture and
Playback. -/

namespace Sys2Proof.Machine

/-- DISP (R171). Guard: `ADCF` = 1, `ADC_IE` = 1, `SEQ` = 0. -/
def execDisp (s : State) : Host.Outcome State Fault Refusal :=
  guarded (dispReady s) (fun s => enterDispatcher (record .disp s)) s

/-- ACK (R173). Guard: `SEQ` = 1. -/
def execAck (s : State) : Host.Outcome State Fault Refusal :=
  guarded (s.seq == 1#2) (fun s => { record .ack s with tickf := false, seq := 2#2 }) s

end Sys2Proof.Machine
end

