-- ==== Sys2Proof/Machine/HostInit.lean ====
section
/-! DEFINITION. Initialization: INIT (45_host_init). -/

namespace Sys2Proof.Machine

/-- The effects of a passing INIT, in the order of R188. -/
def initEffects (ch : Channel) (hd : Handle) (s : State) : State :=
  { setConverter ch (setClock (reloadWord s.params) s) with
    outEn := true, modem := hd, inited := true }

/-- The body of INIT (R186): the first failing check of R187 decides; else the effects of R188. -/
def initialized (ch : Channel) (hd : Handle) (s : State) : State :=
  let s1 := record (.init ch hd) s
  match initCause ch hd s1 with
  | some c => raiseFault c s1
  | none => initEffects ch hd s1

/-- INIT `ch`, `hd` (R186). Accepted only while `SEQ` = 0 (R64). -/
def execInit (ch : Channel) (hd : Handle) (s : State) : Host.Outcome State Fault Refusal :=
  guarded (hrdy s) (initialized ch hd) s

end Sys2Proof.Machine
end

