-- ==== Sys2Proof/Machine/KeyControl.lean ====
section
/-! DEFINITION. Transmit key control: STXE, SKEY, LTXE, LKEY (43_key_control). Each is accepted only while
`SEQ` = 0 (R64). -/

namespace Sys2Proof.Machine

/-- STXE `b` (R161). -/
def execStxe (b : Bool) (s : State) : Host.Outcome State Fault Refusal :=
  guarded (hrdy s) (fun s => { record (.stxe b) s with txen := b }) s

/-- SKEY `b` (R162). -/
def execSkey (b : Bool) (s : State) : Host.Outcome State Fault Refusal :=
  guarded (hrdy s) (fun s => { record (.skey b) s with key := b }) s

/-- Drive a response on `HRSP` (R46, R91). -/
def respond (w : Word) (s : State) : State := { s with ports := { s.ports with hrsp := w } }

/-- LTXE (R163). -/
def execLtxe (s : State) : Host.Outcome State Fault Refusal :=
  guarded (hrdy s) (fun s => respond (flagResponse s.txen) (record .ltxe s)) s

/-- LKEY (R164). -/
def execLkey (s : State) : Host.Outcome State Fault Refusal :=
  guarded (hrdy s) (fun s => respond (flagResponse s.key) (record .lkey s)) s

end Sys2Proof.Machine
end

