-- ==== Sys2Proof/Machine/Playback.lean ====
section
/-! DEFINITION. dac_playback_selector: WROUT, PLAY, REQOUT (42_playback_path). -/

namespace Sys2Proof.Machine

/-- WROUT `v` (R141). -/
def execWrout (v : Byte) (s : State) : Host.Outcome State Fault Refusal :=
  .next (writeOutput v s)

/-- REQOUT `hd` (R143). The returned flag writes are applied by PLAY, not here. -/
def execReqout (hd : Handle) (s : State) : Host.Outcome State Fault Refusal :=
  .next (askSample hd s)

/-- The modulating branch of PLAY (R142): ask, write the masked sample with the key bit, and only then
apply the modem's flag writes. -/
def playModulating (s : State) : State :=
  let s1 := askSample s.modem s
  let s2 := writeOutput (modulatingByte s1.ports.mrspSample) s1
  applyWrites s2.ports.mrspWrites s2

/-- The body of PLAY (R142): `TXEN` is read once, `KEY` only when `TXEN` = 0; the end is the return. -/
def played (s : State) : State :=
  let s1 := record .play s
  leaveDispatcher (if s1.txen then playModulating s1 else writeOutput (idleByte s1.key) s1)

/-- PLAY (R142). Guard: `SEQ` = 3. -/
def execPlay (s : State) : Host.Outcome State Fault Refusal :=
  guarded (s.seq == 3#2) played s

end Sys2Proof.Machine
end

