-- ==== Sys2Proof/Machine/Timer.lean ====
section
/-! DEFINITION. sampling_clock_timer: CFGCLK and CLK (40_sampling_clock). -/

namespace Sys2Proof.Machine

/-- CFGCLK `d` (R102). No guard of its own. -/
def execCfgclk (d : Half) (s : State) : Host.Outcome State Fault Refusal :=
  .next (setClock d s)

/-- CLK (R104): enabled in every state. The edge that finds `CNT` = `RELOAD` is the tick; it wraps the
counter, sets `TICKF` and triggers the converter in the same step, or is OVERRUN (R207). -/
def execClk (s : State) : Host.Outcome State Fault Refusal :=
  let s1 := record .clk s
  if s1.tmrEn = false then .next s1
  else if s1.cnt ≠ s1.reload then .next { s1 with cnt := s1.cnt + 1#16 }
  else if serviceOpen s1 then .fault .overrun
  else .next (trigger { s1 with cnt := 0#16, tickf := true })

end Sys2Proof.Machine
end

