-- ==== Sys2Proof/Machine/Dispatch.lean ====
section
/-! DEFINITION. The meaning of each operation of R84, one arm per constructor. -/

namespace Sys2Proof.Machine

def exec (i : Instr) (s : State) : Host.Outcome State Fault Refusal :=
  match i with
  -- class H, host commands
  | .init ch hd => Sys2Proof.Machine.execInit ch hd s
  | .stxe b => Sys2Proof.Machine.execStxe b s
  | .skey b => Sys2Proof.Machine.execSkey b s
  | .ltxe => Sys2Proof.Machine.execLtxe s
  | .lkey => Sys2Proof.Machine.execLkey s
  -- class P, HAL primitives
  | .cfgclk d => Sys2Proof.Machine.execCfgclk d s
  | .cfgadc ch => Sys2Proof.Machine.execCfgadc ch s
  | .wrout v => Sys2Proof.Machine.execWrout v s
  | .rdin => Sys2Proof.Machine.execRdin s
  -- class U, micro-operations
  | .ack => Sys2Proof.Machine.execAck s
  | .capt => Sys2Proof.Machine.execCapt s
  | .play => Sys2Proof.Machine.execPlay s
  -- class M, modem transactions
  | .newin hd x => Sys2Proof.Machine.execNewin hd x s
  | .reqout hd => Sys2Proof.Machine.execReqout hd s
  -- class E, hardware events
  | .clk => Sys2Proof.Machine.execClk s
  | .trig => Sys2Proof.Machine.execTrig s
  | .conv raw => Sys2Proof.Machine.execConv raw s
  | .disp => Sys2Proof.Machine.execDisp s

end Sys2Proof.Machine
end

