-- ==== Sys2Proof/Machine/Fetch.lean ====
section
/-! DEFINITION. What a turn brings: the operation the agent that moves carries out, the host port's
treatment of a word (R64, R92), and the fetch from the micro-ROM (R172). -/

namespace Sys2Proof.Machine

/-- What the agent that has the turn does. -/
inductive Offer where
  /-- The agent is held: its guard is false (R10). -/
  | held
  /-- It carries out an operation. -/
  | op (i : Instr)
  /-- The host port was offered a word that is no host command (R92). -/
  | illegal (w : Word)
  /-- The reset input (R230). -/
  | reset
  deriving DecidableEq, Repr

/-- The DISPATCHER's operation: DISP while `SEQ` = 0 and the request is pending (R171), else the word
fetched from the micro-ROM (R172). -/
def dispatcherOffer (s : State) : Offer :=
  match romFetch s.seq with
  | some w =>
    match decode w with
    | .ok i => .op i
    | .error _ => .held
  | none => if dispReady s then .op .disp else .held

/-- The FOREGROUND's operation: no word is accepted while `SEQ` ≠ 0 (R64). -/
def foregroundOffer (s : State) : Offer :=
  if hrdy s then
    match decodeHost s.env.hostWord with
    | some i => .op i
    | none => .illegal s.env.hostWord
  else .held

/-- What the turn brings. CLK, CONV and DISP are never decoded from anywhere (R81). -/
def offer (t : Turn) (s : State) : Offer :=
  match t with
  | .timer => .op .clk
  | .converter => if s.adcBusy then .op (.conv s.env.raw) else .held
  | .dispatcher => dispatcherOffer s
  | .foreground => foregroundOffer s
  | .resetLine => .reset

/-- The environment after the turn: an accepted host word and a drawn raw value are used up. -/
def offerEnv (t : Turn) (s : State) : Env :=
  match t with
  | .converter => if s.adcBusy then s.env.popRaw else s.env
  | .foreground => if hrdy s then s.env.popHostWord else s.env
  | .timer | .dispatcher | .resetLine => s.env

/-- The host port offered an illegal word (R92, R206): recorded, `FAULT[4]` set, nothing else. -/
def illegalCommand (w : Word) (s : State) : State := raiseFault .illCmd (recordWord w s)

/-- The state that lets the next step carry out `i` and nothing else, on the path the spec gives `i` (log
12): a host command at the head of the host port with `SEQ` = 0, a micro-operation selected by `SEQ`, an
event of its agent with the agent's guard true. A HAL primitive, a modem transaction or TRIG, which the
spec issues only inside another step, goes into `env.inner`. -/
def placeInstr (i : Instr) (w : Word) (s : State) : State :=
  let e := { s.env with inner := none }
  match i with
  | .init _ _ | .stxe _ | .skey _ | .ltxe | .lkey =>
    { s with seq := 0#2, env := { e with agenda := .foreground :: e.agenda, hcmd := w :: e.hcmd } }
  | .ack => { s with seq := 1#2, env := { e with agenda := .dispatcher :: e.agenda } }
  | .capt => { s with seq := 2#2, env := { e with agenda := .dispatcher :: e.agenda } }
  | .play => { s with seq := 3#2, env := { e with agenda := .dispatcher :: e.agenda } }
  | .clk => { s with env := { e with agenda := .timer :: e.agenda } }
  | .conv raw =>
    { s with adcBusy := true, env := { e with agenda := .converter :: e.agenda, ain := raw :: e.ain } }
  | .disp =>
    { s with seq := 0#2, adcf := true, adcIe := true,
             env := { e with agenda := .dispatcher :: e.agenda } }
  | .cfgclk _ | .cfgadc _ | .wrout _ | .rdin | .newin _ _ | .reqout _ | .trig =>
    { s with env := { e with inner := some w } }

/-- A word that spells no operation is offered where it can reach the block at all: the host port (R93). -/
def placeWord (w : Word) (s : State) : State :=
  match decode w with
  | .ok i => placeInstr i w s
  | .error _ =>
    { s with seq := 0#2,
             env := { s.env with inner := none, agenda := .foreground :: s.env.agenda,
                                 hcmd := w :: s.env.hcmd } }

end Sys2Proof.Machine
end

