-- ==== Sys2Proof/Machine/Step.lean ====
section
/-! DEFINITION. One atomic step of the machine (R10, R71), and the placing of an instruction where the
next step finds it. -/

namespace Sys2Proof.Machine

/-- Carry out what a turn brought. -/
def runOffer (o : Offer) (s : State) : Host.Outcome State Fault Refusal :=
  match o with
  | .held => .next s
  | .op i => exec i s
  | .illegal w => .next (illegalCommand w s)
  | .reset => .next (resetLine s)

/-- The step in which the agent `t` moves. -/
def stepTurn (t : Turn) (s : State) : Host.Outcome State Fault Refusal :=
  runOffer (offer t s) { s with env := offerEnv t s }

/-- The step that carries out an inner operation word set from outside (log 12). -/
def stepInner (w : Word) (s : State) : Host.Outcome State Fault Refusal :=
  match decode w with
  | .ok i => exec i s
  | .error e => .refused (.innerReserved e)

/-- One step: the agent the schedule chooses moves (R71). With `env.inner` set, that operation runs. -/
def step (s : State) : Host.Outcome State Fault Refusal :=
  match s.env.inner with
  | some w => stepInner w { s with env := { s.env with inner := none } }
  | none => stepTurn s.env.turn { s with env := s.env.popTurn }

/-- `s` with the instruction of `nbits` bits `w` where `step` finds its next operation (log 12). -/
def State.withFetchWord (s : State) (nbits w : Nat) : State := placeWord (tableWord nbits w) s

end Sys2Proof.Machine
end

