-- ==== Sys2Proof/Machine/Schedule.lean ====
section
/-! DEFINITION. Infinite runs under a schedule, and the weak fairness that the spec grants the CONVERTER and
the DISPATCHER (R124, R171, R174). The step itself admits every schedule (R71); fairness is a property of a
run, and what eventually happens is claimed of fair runs (log 15). -/

namespace Sys2Proof.Machine

/-- One step of a run, in which `t` moves. Before it the environment may have changed what is its own: who
moves, and the inputs it offers. No inner operation is placed from outside (log 12). -/
def StepsBy (t : Turn) (s s' : State) : Prop :=
  ∃ e : Env, e.inner = none ∧ e.turn = t ∧ step { s with env := e } = .next s'

/-- `r` is an infinite run under the schedule `σ`. An OVERRUN has no next state, so no tick of the run is one
(R176, R207). -/
def Run (σ : Nat → Turn) (r : Nat → State) : Prop :=
  ∀ n, StepsBy (σ n) (r n) (r (n + 1))

/-- The operations the spec grants weak fairness: CONV (R124), DISP (R171), and ACK, CAPT, PLAY (R174). -/
inductive FairOp where
  | conv | disp | ack | capt | play
  deriving DecidableEq, Repr

/-- The agent that issues the operation (R9). -/
def FairOp.agent : FairOp → Turn
  | .conv => .converter
  | .disp | .ack | .capt | .play => .dispatcher

/-- The guard of the operation: with it true, the operation is what a turn of its agent carries out. -/
def FairOp.ready (o : FairOp) (s : State) : Bool :=
  match o with
  | .conv => s.adcBusy
  | .disp => dispReady s
  | .ack => s.seq == 1#2
  | .capt => s.seq == 2#2
  | .play => s.seq == 3#2

/-- Weak fairness: an operation that stays ready for ever from some point on is taken at or after it. -/
def WeaklyFair (σ : Nat → Turn) (r : Nat → State) : Prop :=
  ∀ (o : FairOp) (n : Nat), (∀ m, n ≤ m → o.ready (r m) = true) → ∃ m, n ≤ m ∧ σ m = o.agent

/-- A fair run: an infinite run whose schedule is weakly fair to every operation of `FairOp`. -/
def FairRun (σ : Nat → Turn) (r : Nat → State) : Prop := Run σ r ∧ WeaklyFair σ r

end Sys2Proof.Machine
end

