-- ==== Sys2Proof/Safety.lean ====
section
/-! DEFINITION. The terms claims use: the relations of R44, the order of the event history (R72, R129,
R175), runs of operations, and the state in which a placed instruction runs. -/

namespace Sys2Proof.Machine

/-! ### The relations between registers (R44) -/

/-- R44 item 1: the enables are set together with `INITED`. -/
abbrev EnablesTogether (s : State) : Prop :=
  s.tmrEn = s.inited ∧ s.adcEn = s.inited ∧ s.adcAte = s.inited ∧ s.adcIe = s.inited ∧
  s.adcRef = s.inited ∧ s.outEn = s.inited

/-- R44 item 2: what a session has configured. -/
abbrev SessionConfigured (s : State) : Prop :=
  s.inited = true →
    s.modem ≠ 0#8 ∧ s.chan.toNat < s.params.nChan ∧ (s.reload.toNat : Int) = reloadConst s.params ∧
    s.pinIn = 1#16 <<< s.chan.toNat ∧ s.dinDis = 1#16 <<< s.chan.toNat

/-- R44 item 3: nothing has happened before INIT. -/
abbrev QuietBeforeInit (s : State) : Prop :=
  s.inited = false →
    s.cnt = 0#16 ∧ s.tickf = false ∧ s.adcBusy = false ∧ s.adcf = false ∧ s.seq = 0#2 ∧ s.out = 0#8

/-- R44 item 4: `CNT` ≤ `RELOAD`. -/
abbrev CounterBounded (s : State) : Prop := s.cnt.toNat ≤ s.reload.toNat

/-- R44 item 5: one tick's service is a chain. -/
abbrev ServiceChain (s : State) : Prop :=
  (s.adcBusy = true → s.tickf = true ∧ s.adcf = false ∧ s.seq = 0#2) ∧
  (s.adcf = true → s.tickf = true ∧ s.adcBusy = false ∧ s.seq = 0#2) ∧
  (s.seq = 1#2 → s.tickf = true) ∧
  (s.seq = 2#2 ∨ s.seq = 3#2 → s.tickf = false ∧ s.adcBusy = false ∧ s.adcf = false)

/-- R44 item 6: `OUT[2:0]` = 0. -/
abbrev OutLowBitsZero (s : State) : Prop := s.out.extractLsb' 0 3 = 0#3

/-- The six relations of R44. -/
abbrev Relations (s : State) : Prop :=
  EnablesTogether s ∧ SessionConfigured s ∧ QuietBeforeInit s ∧ CounterBounded s ∧ ServiceChain s ∧
  OutLowBitsZero s

/-- What R44 does not list and the induction needs: the configuration before INIT is that of reset, a set
`TICKF` belongs to a service under way, and nothing was placed from outside (log 12). -/
abbrev Background (s : State) : Prop :=
  (s.inited = false →
    s.reload = 0#16 ∧ s.chan = 0#4 ∧ s.pinIn = 0#16 ∧ s.dinDis = 0#16 ∧ s.modem = 0#8) ∧
  (s.tickf = true → s.adcBusy = true ∨ s.adcf = true ∨ s.seq = 1#2) ∧
  s.env.inner = none

/-- The invariant of the block: R44 and its background. -/
abbrev BlockInv (s : State) : Prop := Relations s ∧ Background s

/-! ### The order of the event history (R72, R129, R175) -/

/-- How far the service of a tick has gone, as the history shows it. -/
inductive Phase where
  /-- No service under way. -/
  | idle
  /-- After TRIG. -/
  | triggered
  /-- After CONV. -/
  | converted
  /-- After DISP. -/
  | entered
  /-- After ACK. -/
  | acked
  /-- After CAPT, inside the CAPT step. -/
  | capturing
  /-- After RDIN, inside the CAPT step. -/
  | reading
  /-- After NEWIN: CAPT is over. -/
  | delivered
  /-- After PLAY, inside the PLAY step. -/
  | playing
  /-- After REQOUT, inside the PLAY step. -/
  | asked
  deriving DecidableEq, Repr

/-- A phase in which the foreground may run: a host command, or what INIT issues, may stand there. -/
def Phase.foreground : Phase → Bool
  | .idle | .triggered | .converted => true
  | .entered | .acked | .capturing | .reading | .delivered | .playing | .asked => false

/-- A phase between two steps: a CLK word may stand there. -/
def Phase.between : Phase → Bool
  | .idle | .triggered | .converted | .entered | .acked | .delivered => true
  | .capturing | .reading | .playing | .asked => false

/-- The phase after one more word, or `none` if the order of R175 forbids the word there. -/
def Phase.read (p : Phase) (w : Word) : Option Phase :=
  let op := opField w
  if op = 0x40#8 then (if p.between then some p else none)
  else if op = 0x01#8 ∨ op = 0x02#8 ∨ op = 0x03#8 ∨ op = 0x04#8 ∨ op = 0x05#8 ∨ op = 0x10#8 ∨ op = 0x11#8
  then (if p.foreground then some p else none)
  else
    match p with
    | .idle => if op = 0x41#8 then some .triggered else none
    | .triggered => if op = 0x42#8 then some .converted else none
    | .converted => if op = 0x43#8 then some .entered else none
    | .entered => if op = 0x20#8 then some .acked else none
    | .acked => if op = 0x21#8 then some .capturing else none
    | .capturing => if op = 0x13#8 then some .reading else none
    | .reading => if op = 0x30#8 then some .delivered else none
    | .delivered => if op = 0x22#8 then some .playing else none
    | .playing => if op = 0x31#8 then some .asked else if op = 0x12#8 then some .idle else none
    | .asked => if op = 0x12#8 then some .idle else none

/-- Read a history from phase `p`. -/
def readFrom (p : Phase) : List Word → Option Phase
  | [] => some p
  | w :: rest =>
    match p.read w with
    | some q => readFrom q rest
    | none => none

/-- The phase the registers show between two steps. -/
def phaseOf (s : State) : Phase :=
  if s.adcBusy then .triggered
  else if s.adcf then .converted
  else if s.seq = 1#2 then .entered
  else if s.seq = 2#2 then .acked
  else if s.seq = 3#2 then .delivered
  else .idle

/-- As long as no illegal host word was recorded, the whole history obeys the order and ends in the phase
the registers show. (An illegal word is recorded as it stands, R206, and may look like any operation.) -/
def Ordered (s : State) : Prop :=
  s.fault.getLsbD 4 = false → readFrom .idle s.hist = some (phaseOf s)

/-! ### Runs of operations, and the state in which a placed instruction runs -/

/-- Carry out a list of operations in order, stopping at the first that stops. -/
def execAll : List Instr → State → Host.Outcome State Fault Refusal
  | [], s => .next s
  | i :: rest, s =>
    match exec i s with
    | .next t => execAll rest t
    | .fault f => .fault f
    | .refused r => .refused r

/-- How many operations of a list are CLK. -/
def clkCount (is : List Instr) : Nat := is.count .clk

/-- The next state of an outcome, if it is one. -/
def nextState (o : Host.Outcome State Fault Refusal) : Option State :=
  match o with
  | .next s => some s
  | .fault _ => none
  | .refused _ => none

/-- The state `exec` runs an instruction in after `State.withFetchWord` placed it: the selection that the
instruction's own path needs, and no other change (log 12). -/
def readyFor (i : Instr) (s : State) : State :=
  let s0 := { s with env := { s.env with inner := none } }
  match i with
  | .init _ _ | .stxe _ | .skey _ | .ltxe | .lkey => { s0 with seq := 0#2 }
  | .ack => { s0 with seq := 1#2 }
  | .capt => { s0 with seq := 2#2 }
  | .play => { s0 with seq := 3#2 }
  | .conv _ => { s0 with adcBusy := true }
  | .disp => { s0 with seq := 0#2, adcf := true, adcIe := true }
  | .clk | .cfgclk _ | .cfgadc _ | .wrout _ | .rdin | .newin _ _ | .reqout _ | .trig => s0

end Sys2Proof.Machine
end

