-- ==== Sys2Proof/Certificates/Slice0/Obligations.lean ====
section
/-! DEFINITION. What is claimed of the model, one statement each, from the numbered rules of the spec. -/

open Sys2Proof Sys2Proof.Machine

/-! ### Encoding (30_encoding) -/

/-- R80, R83: decoding the word of an instruction gives the instruction back, every operand at every value
its field admits. -/
def Obligations.DecodeEncodeRoundTrip : Prop :=
  ∀ i : Instr, i.wf = true → decode (encode i) = .ok i

/-- The other direction: a word that decodes is the word of what it decodes to, so no bit is dropped. -/
def Obligations.EncodeDecodeRoundTrip : Prop :=
  ∀ (w : Word) (i : Instr), decode w = .ok i → i.wf = true ∧ encode i = w

/-- R83, R84: a word spells an operation exactly when `w & mask = match`, and its operands are the fields of
R83; the table is written out here, with the class of each row (R81). The sample of NEWIN is the one signed
operand. -/
def Obligations.WordSpellsByMaskAndMatch : Prop :=
  ∀ w : Word,
    let hd : Handle := w.extractLsb' 16 8
    let arg : Half := w.extractLsb' 0 16
    let signed : Int := if arg.getLsbD 15 then (arg.toNat : Int) - 65536 else arg.toNat
    ∀ r ∈
      [ (0x01000000#32, 0xFF00FFF0#32, OpClass.host,      Instr.init (w.extractLsb' 0 4) hd),
        (0x02000000#32, 0xFFFFFFFE#32, OpClass.host,      Instr.stxe (w.getLsbD 0)),
        (0x03000000#32, 0xFFFFFFFE#32, OpClass.host,      Instr.skey (w.getLsbD 0)),
        (0x04000000#32, 0xFFFFFFFF#32, OpClass.host,      Instr.ltxe),
        (0x05000000#32, 0xFFFFFFFF#32, OpClass.host,      Instr.lkey),
        (0x10000000#32, 0xFFFF0000#32, OpClass.primitive, Instr.cfgclk arg),
        (0x11000000#32, 0xFFFFFFF0#32, OpClass.primitive, Instr.cfgadc (w.extractLsb' 0 4)),
        (0x12000000#32, 0xFFFFFF00#32, OpClass.primitive, Instr.wrout (w.extractLsb' 0 8)),
        (0x13000000#32, 0xFFFFFFFF#32, OpClass.primitive, Instr.rdin),
        (0x20000000#32, 0xFFFFFFFF#32, OpClass.micro,     Instr.ack),
        (0x21000000#32, 0xFFFFFFFF#32, OpClass.micro,     Instr.capt),
        (0x22000000#32, 0xFFFFFFFF#32, OpClass.micro,     Instr.play),
        (0x30000000#32, 0xFF000000#32, OpClass.modem,     Instr.newin hd signed),
        (0x31000000#32, 0xFF00FFFF#32, OpClass.modem,     Instr.reqout hd),
        (0x40000000#32, 0xFFFFFFFF#32, OpClass.event,     Instr.clk),
        (0x41000000#32, 0xFFFFFFFF#32, OpClass.event,     Instr.trig),
        (0x42000000#32, 0xFFFFFC00#32, OpClass.event,     Instr.conv (w.extractLsb' 0 10)),
        (0x43000000#32, 0xFFFFFFFF#32, OpClass.event,     Instr.disp) ],
      (w &&& r.2.1 = r.1 ↔ decode w = .ok r.2.2.2) ∧ r.2.2.2.op.cls = r.2.2.1

/-- R81, R9: the class of an operation is the high digit of its code; only class H passes the host port; and
a turn brings only the operations of the agent that has it, so a HAL primitive, a modem transaction or TRIG
is never carried out but inside another operation. -/
def Obligations.OperationsIssuedByTheirClass : Prop :=
  ∀ i : Instr,
    (match i.op.cls with
      | .host => (encode i).extractLsb' 28 4 = 0#4
      | .primitive => (encode i).extractLsb' 28 4 = 1#4
      | .micro => (encode i).extractLsb' 28 4 = 2#4
      | .modem => (encode i).extractLsb' 28 4 = 3#4
      | .event => (encode i).extractLsb' 28 4 = 4#4) ∧
    (i.wf = true → (decodeHost (encode i) = some i ↔ i.op.cls = .host)) ∧
    ∀ (t : Turn) (s : State), offer t s = .op i →
      (t = .timer ∧ i = .clk) ∨ (t = .converter ∧ ∃ raw, i = .conv raw) ∨
      (t = .dispatcher ∧ (i = .disp ∨ i.op.cls = .micro)) ∨ (t = .foreground ∧ i.op.cls = .host)

/-- R93: the decoder is total; every reserved code, and no other, is rejected as reserved. -/
def Obligations.ReservedCodesRejected : Prop :=
  ∀ w : Word,
    let op := (opField w).toNat
    let reserved := op = 0x00 ∨ (0x06 ≤ op ∧ op ≤ 0x0F) ∨ (0x14 ≤ op ∧ op ≤ 0x1F) ∨
      (0x23 ≤ op ∧ op ≤ 0x2F) ∨ (0x32 ≤ op ∧ op ≤ 0x3F) ∨ (0x44 ≤ op ∧ op ≤ 0xFF)
    (reserved → decode w = .error (.reservedOp (opField w))) ∧
    (¬ reserved → decode w = .error (.mustBeZero (opField w)) ∨ ∃ i, decode w = .ok i)

/-- Words written out from 95_test_vectors section 2 decode to what stands beside them there. -/
def Obligations.SpelledWordsDecode : Prop :=
  decode 0x01050002#32 = .ok (.init 2#4 5#8) ∧ decode 0x02000001#32 = .ok (.stxe true) ∧
  decode 0x10000681#32 = .ok (.cfgclk 1665#16) ∧ decode 0x12000038#32 = .ok (.wrout 0x38#8) ∧
  decode 0x22000000#32 = .ok .play ∧ decode 0x3001FFBF#32 = .ok (.newin 1#8 (-65)) ∧
  decode 0x31050000#32 = .ok (.reqout 5#8) ∧ decode 0x42000203#32 = .ok (.conv 515#10)

/-! ### Steps -/

/-- A placed instruction runs: the step after `withFetchWord` is `exec` of the decoded instruction, in the
state that differs from `s` only in the selection its own path needs (`readyFor`, log 12). -/
def Obligations.StepRunsPlacedInstruction : Prop :=
  ∀ (s : State) (i : Instr), i.wf = true →
    step (s.withFetchWord 32 (encode i).toNat) = exec i (readyFor i s)

/-- R9, R172, R90: what each agent's turn runs. The DISPATCHER runs DISP when its guard holds, and the
micro-operation that `SEQ` selects. The model's choices: the turn comes from a list in State (log 1); a held
agent's turn is a step without effect (its reading of R10, log 2); the raw value that R124 draws is the head of
a list in State, and with none queued a free value that counts a draw (log 9). -/
def Obligations.TurnRunsAgentOperation : Prop :=
  ∀ (s : State) (t : Turn) (rest : List Turn), s.env.inner = none → s.env.agenda = t :: rest →
    let s' := { s with env := { s.env with agenda := rest } }
    (t = .timer → step s = exec .clk s') ∧
    (t = .converter → s.adcBusy = true → ∀ r rs, s.env.ain = r :: rs →
      step s = exec (.conv r) { s' with env := { s'.env with ain := rs } }) ∧
    (t = .converter → s.adcBusy = true → s.env.ain = [] →
      ∃ r, step s = exec (.conv r) { s' with env := { s'.env with draws := s.env.draws + 1 } }) ∧
    (t = .converter → s.adcBusy = false → step s = .next s') ∧
    (t = .dispatcher → s.seq = 0#2 → s.adcf = true → s.adcIe = true → step s = exec .disp s') ∧
    (t = .dispatcher → s.seq = 0#2 → s.adcf = false ∨ s.adcIe = false → step s = .next s') ∧
    (t = .dispatcher → s.seq = 1#2 → step s = exec .ack s') ∧
    (t = .dispatcher → s.seq = 2#2 → step s = exec .capt s') ∧
    (t = .dispatcher → s.seq = 3#2 → step s = exec .play s')

/-- R92, R64, R206: at the host port, with `SEQ` = 0, a word of one of the five class-H rows runs; every other
word sets `FAULT[4]`, is recorded, and changes nothing else. That the turn and the word are used up are the
model's choices (logs 1 and 10), that the fault is a next state is its reading (log 13). -/
def Obligations.HostPortAcceptsOnlyHostCommands : Prop :=
  ∀ (s : State) (w : Word) (rest : List Turn) (ws : List Word),
    s.env.inner = none → s.env.agenda = .foreground :: rest → s.env.hcmd = w :: ws → s.seq = 0#2 →
    let s' := { s with env := { s.env with agenda := rest, hcmd := ws } }
    let legal := w &&& 0xFF00FFF0#32 = 0x01000000#32 ∨ w &&& 0xFFFFFFFE#32 = 0x02000000#32 ∨
      w &&& 0xFFFFFFFE#32 = 0x03000000#32 ∨ w = 0x04000000#32 ∨ w = 0x05000000#32
    (legal → ∃ i, decode w = .ok i ∧ step s = exec i s') ∧
    (¬ legal → step s = .next { s' with fault := s.fault ||| 0b10000#5, hist := s.hist ++ [w] })

/-- U9, R64: while `SEQ` ≠ 0 the foreground has no step; the offered word waits and nothing faults. -/
def Obligations.HostHeldDuringInvocation : Prop :=
  ∀ (s : State) (rest : List Turn),
    s.env.inner = none → s.env.agenda = .foreground :: rest → s.seq ≠ 0#2 →
    step s = .next { s with env := { s.env with agenda := rest } }

/-- R230: the RESET step sets every register but the two unspecified ones to its reset value, from every
state, and starts a new history. That the parameters and queued inputs stay is the model's choice (log 11). -/
def Obligations.ResetStepResetsRegisters : Prop :=
  ∀ (s : State) (rest : List Turn), s.env.inner = none → s.env.agenda = .resetLine :: rest →
    ∃ (d : Raw) (x : Half), step s = .next
      { State.resetWith s.params d x with
        env := { s.env with agenda := rest, draws := s.env.draws + 1 } }

/-! ### sampling_clock_timer (40_sampling_clock) -/

/-- R104: CLK, all four cases. For `CNT` above `RELOAD`, which no reachable state has, the 16-bit wrap of the
counter is the model's (log 16); that OVERRUN stops without keeping its CLK word is its reading of R207
(log 13). -/
def Obligations.ClkCountsTicksOrOverruns : Prop :=
  ∀ s : State,
    (s.tmrEn = false → exec .clk s = .next { s with hist := s.hist ++ [0x40000000#32] }) ∧
    (s.tmrEn = true → s.cnt ≠ s.reload →
      exec .clk s = .next { s with cnt := s.cnt + 1#16, hist := s.hist ++ [0x40000000#32] }) ∧
    (s.tmrEn = true → s.cnt = s.reload →
      (s.tickf = true ∨ s.adcBusy = true ∨ s.adcf = true ∨ s.seq ≠ 0#2) →
      exec .clk s = .fault .overrun) ∧
    (s.tmrEn = true → s.cnt = s.reload →
      ¬ (s.tickf = true ∨ s.adcBusy = true ∨ s.adcf = true ∨ s.seq ≠ 0#2) →
      exec .clk s = .next
        { s with cnt := 0#16, tickf := true, adcBusy := s.adcEn && s.adcAte,
                 hist := s.hist ++ (if s.adcEn && s.adcAte then [0x40000000#32, 0x41000000#32]
                   else [0x40000000#32]) })

/-- R102: CFGCLK, in every state, for every 16-bit `d`. -/
def Obligations.CfgclkRestartsPeriod : Prop :=
  ∀ (d : Half) (s : State),
    exec (.cfgclk d) s = .next
      { s with reload := d, cnt := 0#16, tmrEn := true,
               hist := s.hist ++ [0x10000000#32 ||| d.setWidth 32] }

/-- R8, R101: the divisor is the truncated quotient less one, over the integers; it fits the counter
exactly when 9600 ≤ `F_BASE` + `CORR` ≤ 629155199; and then it is the largest period not too long. -/
def Obligations.DivisorArithmetic : Prop :=
  ∀ p : Params,
    let f : Int := p.fBase + p.corr
    (0 ≤ f → 9600 * (reloadConst p + 1) ≤ f ∧ f < 9600 * (reloadConst p + 2)) ∧
    (f < 0 → 9600 * (reloadConst p + 1) ≥ f ∧ f > 9600 * reloadConst p) ∧
    (reloadFits p = true ↔ 9600 ≤ f ∧ f ≤ 629155199) ∧
    (reloadFits p = true → ((reloadWord p).toNat : Int) = reloadConst p)

/-- R106: number the edges after a state with `CNT` = 0 and the counter on (a CFGCLK leaves one). As long as
no other CFGCLK follows (none is recorded up to `t`; a rejected INIT records none), and whatever else runs
between, edge `n` is a tick exactly when `RELOAD` + 1 divides `n`: the edge after `t` has the number
`clkCount is + 1`. -/
def Obligations.TickPeriodIsReloadPlusOne : Prop :=
  ∀ (is : List Instr) (s t : State), s.tmrEn = true → s.cnt = 0#16 → execAll is s = .next t →
    (∀ w ∈ t.hist.drop s.hist.length, opField w ≠ 0x10#8) →
    t.reload = s.reload ∧ t.tmrEn = true ∧
    t.cnt.toNat = clkCount is % (s.reload.toNat + 1) ∧
    (isTick t = true ↔ (s.reload.toNat + 1) ∣ (clkCount is + 1))

/-- R105: two machines that agree on `TMR_EN`, `CNT` and `RELOAD`, and on nothing else, agree on them after
any operation but INIT, and agree on whether the next edge is a tick. For `CNT` above `RELOAD` the counter is
the model's (log 16). -/
def Obligations.TickTrainIgnoresEverythingElse : Prop :=
  ∀ (i : Instr) (s₁ s₂ t₁ t₂ : State), i.op ≠ .init →
    s₁.tmrEn = s₂.tmrEn → s₁.cnt = s₂.cnt → s₁.reload = s₂.reload →
    exec i s₁ = .next t₁ → exec i s₂ = .next t₂ →
    t₁.tmrEn = t₂.tmrEn ∧ t₁.cnt = t₂.cnt ∧ t₁.reload = t₂.reload ∧ isTick t₁ = isTick t₂

/-! ### adc_capture_synchronizer (41_capture_path) -/

/-- R121: CFGADC, in every state. -/
def Obligations.CfgadcConfiguresConverter : Prop :=
  ∀ (ch : Channel) (s : State),
    exec (.cfgadc ch) s = .next
      { s with adcRef := true, chan := ch, pinIn := s.pinIn ||| (1#16 <<< ch.toNat),
               dinDis := s.dinDis ||| (1#16 <<< ch.toNat), adcAte := true, adcIe := true, adcEn := true,
               hist := s.hist ++ [0x11000000#32 ||| ch.setWidth 32] }

/-- R123: TRIG starts a conversion when `ADC_EN` and `ADC_ATE` are set, and does nothing otherwise. Run alone it
does not look at the 0-to-1 change of `TICKF` (log 25). -/
def Obligations.TrigStartsConversion : Prop :=
  ∀ s : State,
    (s.adcEn = true → s.adcAte = true →
      exec .trig s = .next { s with adcBusy := true, hist := s.hist ++ [0x41000000#32] }) ∧
    (s.adcEn = false ∨ s.adcAte = false → exec .trig s = .next s)

/-- R124: CONV stores any raw value when a conversion is in flight; else there is no step (R10), which the
model answers with the same state (log 2). -/
def Obligations.ConvCompletesConversion : Prop :=
  ∀ (raw : Raw) (s : State),
    (s.adcBusy = true →
      exec (.conv raw) s = .next
        { s with adcData := raw, adcBusy := false, adcf := true,
                 hist := s.hist ++ [0x42000000#32 ||| raw.setWidth 32] }) ∧
    (s.adcBusy = false → exec (.conv raw) s = .next s)

/-- R125, R91: RDIN returns `zext_16(ADC_DATA)` and changes nothing but the history; the latch that holds
the value is the model's (log 6). -/
def Obligations.RdinReturnsConverterData : Prop :=
  ∀ s : State,
    exec .rdin s = .next
      { s with ports := { s.ports with rdinResult := s.adcData.setWidth 16 },
               hist := s.hist ++ [0x13000000#32] }

/-- R127: NEWIN sends the handle and the sample and takes back a list of flag writes, applied to no flag
here. The answer is the next queued one, else a free value (log 7), and the latches are the model's (log 6).
For a sample outside 16 bits, which `tc_16` does not define, sending the low 16 bits is the model's choice
(log 18). -/
def Obligations.NewinSendsSample : Prop :=
  ∀ (hd : Handle) (x : Int) (s : State),
    let w := 0x30000000#32 ||| (hd.setWidth 32 <<< 16) ||| (BitVec.ofInt 16 x).setWidth 32
    (∀ fw rest, s.env.newins = fw :: rest →
      exec (.newin hd x) s = .next
        { s with hist := s.hist ++ [w], ports := { s.ports with mout := w, mrspWrites := fw },
                 env := { s.env with newins := rest } }) ∧
    (s.env.newins = [] → ∃ fw,
      exec (.newin hd x) s = .next
        { s with hist := s.hist ++ [w], ports := { s.ports with mout := w, mrspWrites := fw },
                 env := { s.env with draws := s.env.draws + 1 } })

/-- R126: CAPT reads, recenters, records CAPT, RDIN, NEWIN, applies the modem's flag writes `fw` in order
and moves `SEQ` to 3; every answer of the modem is covered (queue and latches: logs 7 and 6). With `SEQ` ≠ 2
there is no step (R10), which the model answers with the same state (log 2). -/
def Obligations.CaptDeliversRecenteredSample : Prop :=
  ∀ s : State,
    let x : Int := (s.adcData.toNat / 4 : Nat) - 128
    let w := 0x30000000#32 ||| (s.modem.setWidth 32 <<< 16) ||| (BitVec.ofInt 16 x).setWidth 32
    let after (fw : List FlagWrite) (e : Env) : State :=
      { s with sample := BitVec.ofInt 16 x, seq := 3#2,
               txen := fw.foldl (fun b f => if f.flag = .txen then f.value else b) s.txen,
               key := fw.foldl (fun b f => if f.flag = .key then f.value else b) s.key,
               hist := s.hist ++ [0x21000000#32, 0x13000000#32, w],
               ports := { s.ports with rdinResult := s.adcData.setWidth 16, mout := w, mrspWrites := fw },
               env := e }
    (s.seq = 2#2 → ∀ fw rest, s.env.newins = fw :: rest →
      exec .capt s = .next (after fw { s.env with newins := rest })) ∧
    (s.seq = 2#2 → s.env.newins = [] → ∃ fw,
      exec .capt s = .next (after fw { s.env with draws := s.env.draws + 1 })) ∧
    (s.seq ≠ 2#2 → exec .capt s = .next s)

/-- R128: the delivered sample is floor(r / 4) − 128 for every raw value, lies in −128 to 127, does not
decrease with the raw value, and is 0 at mid-scale 512. -/
def Obligations.RecenteringLaw : Prop :=
  ∀ s t : State, s.seq = 2#2 → exec .capt s = .next t →
    t.sample.toInt = (s.adcData.toNat / 4 : Nat) - 128 ∧
    -128 ≤ t.sample.toInt ∧ t.sample.toInt ≤ 127 ∧
    (s.adcData = 512#10 → t.sample = 0#16) ∧
    ∀ s' t' : State, s'.seq = 2#2 → exec .capt s' = .next t' → s.adcData.toNat ≤ s'.adcData.toNat →
      t.sample.toInt ≤ t'.sample.toInt

/-! ### dac_playback_selector (42_playback_path) -/

/-- R141: WROUT writes all eight bits of `OUT` in one step, and the pins follow in the same step when
`OUT_EN` = 1 and are not driven otherwise. -/
def Obligations.WroutWritesPortAndPins : Prop :=
  ∀ (v : Byte) (s : State),
    ∃ t, exec (.wrout v) s = .next t ∧
      t = { s with out := v, hist := s.hist ++ [0x12000000#32 ||| v.setWidth 32] } ∧
      (s.outEn = true → dacPins t = some (v.extractLsb' 4 4) ∧ pttPin t = some (v.getLsbD 3)) ∧
      (s.outEn = false → dacPins t = none ∧ pttPin t = none)

/-- R143: REQOUT sends the handle and takes back any 8-bit value and a list of flag writes, applied to no
flag here. The answer is the next queued one, else a free value (log 7). -/
def Obligations.ReqoutAsksModem : Prop :=
  ∀ (hd : Handle) (s : State),
    let w := 0x31000000#32 ||| (hd.setWidth 32 <<< 16)
    (∀ v fw rest, s.env.reqouts = (v, fw) :: rest →
      exec (.reqout hd) s = .next
        { s with hist := s.hist ++ [w],
                 ports := { s.ports with mout := w, mrspSample := v, mrspWrites := fw },
                 env := { s.env with reqouts := rest } }) ∧
    (s.env.reqouts = [] → ∃ v fw,
      exec (.reqout hd) s = .next
        { s with hist := s.hist ++ [w],
                 ports := { s.ports with mout := w, mrspSample := v, mrspWrites := fw },
                 env := { s.env with draws := s.env.draws + 1 } })

/-- R142: PLAY, all branches. With `TXEN` = 1 the byte is `(v & 0xF0) | 0x08` whatever `KEY` is, and the
modem's flag writes come after the write; with `TXEN` = 0 the modem is not asked. `SEQ` returns to 0 (queue
and latches: logs 7 and 6). With `SEQ` ≠ 3 there is no step (R10), answered with the same state (log 2). -/
def Obligations.PlaySelectsOutput : Prop :=
  ∀ s : State,
    let rq := 0x31000000#32 ||| (s.modem.setWidth 32 <<< 16)
    let wr (b : Byte) : Word := 0x12000000#32 ||| b.setWidth 32
    let after (v : Byte) (fw : List FlagWrite) (e : Env) : State :=
      { s with out := (v &&& 0xF0#8) ||| 0x08#8, seq := 0#2,
               txen := fw.foldl (fun b f => if f.flag = .txen then f.value else b) s.txen,
               key := fw.foldl (fun b f => if f.flag = .key then f.value else b) s.key,
               hist := s.hist ++ [0x22000000#32, rq, wr ((v &&& 0xF0#8) ||| 0x08#8)],
               ports := { s.ports with mout := rq, mrspSample := v, mrspWrites := fw }, env := e }
    (s.seq = 3#2 → s.txen = true → ∀ v fw rest, s.env.reqouts = (v, fw) :: rest →
      exec .play s = .next (after v fw { s.env with reqouts := rest })) ∧
    (s.seq = 3#2 → s.txen = true → s.env.reqouts = [] → ∃ v fw,
      exec .play s = .next (after v fw { s.env with draws := s.env.draws + 1 })) ∧
    (s.seq = 3#2 → s.txen = false → s.key = true →
      exec .play s = .next
        { s with out := 0x88#8, seq := 0#2, hist := s.hist ++ [0x22000000#32, wr 0x88#8] }) ∧
    (s.seq = 3#2 → s.txen = false → s.key = false →
      exec .play s = .next
        { s with out := 0x80#8, seq := 0#2, hist := s.hist ++ [0x22000000#32, wr 0x80#8] }) ∧
    (s.seq ≠ 3#2 → exec .play s = .next s)

/-- R144, R145: what PLAY leaves at the port and the pins. Modulating: `b[7:4]` = `v[7:4]`, `b[3]` = 1,
`b[2:0]` = 0, that is 16 · floor(v / 16) + 8, where `v` is the modem's sample on `MRSP`; the key line is
asserted exactly when a flag is set. The port holds one of the seventeen bytes; the modem is asked (a REQOUT
word is recorded) exactly when `TXEN` = 1. The latch that holds what `MRSP` carried is the model's (log 6). -/
def Obligations.PlayOutputTable : Prop :=
  ∀ s t : State, s.seq = 3#2 → s.outEn = true → exec .play s = .next t →
    (s.txen = false → s.key = false → t.out.toNat = 128 ∧ dacPins t = some 8#4 ∧ pttPin t = some false) ∧
    (s.txen = false → s.key = true → t.out.toNat = 136 ∧ dacPins t = some 8#4 ∧ pttPin t = some true) ∧
    (s.txen = true → t.out.toNat = 16 * (t.ports.mrspSample.toNat / 16) + 8 ∧
      dacPins t = some (t.ports.mrspSample.extractLsb' 4 4) ∧ pttPin t = some true) ∧
    t.out.extractLsb' 0 3 = 0#3 ∧ (t.out = 0x80#8 ∨ t.out.getLsbD 3 = true) ∧
    ((∃ w ∈ t.hist.drop s.hist.length, opField w = 0x31#8) ↔ s.txen = true)

/-! ### Transmit key control (43_key_control) -/

/-- R161, R162: STXE and SKEY write their own flag and record their word, while `SEQ` = 0; else no step (R10,
R64), which the model answers with the same state (log 2). The two legal words of each are the only words
with its code that the host port takes. -/
def Obligations.FlagWriteCommands : Prop :=
  ∀ (b : Bool) (s : State) (w : Word),
    let bw : Word := (BitVec.ofBool b).setWidth 32
    (s.seq = 0#2 →
      exec (.stxe b) s = .next { s with txen := b, hist := s.hist ++ [0x02000000#32 ||| bw] } ∧
      exec (.skey b) s = .next { s with key := b, hist := s.hist ++ [0x03000000#32 ||| bw] }) ∧
    (s.seq ≠ 0#2 → exec (.stxe b) s = .next s ∧ exec (.skey b) s = .next s) ∧
    (opField w = 0x02#8 → (decodeHost w = some (.stxe b) ↔ w = 0x02000000#32 ||| bw) ∧
      (w ≠ 0x02000000#32 → w ≠ 0x02000001#32 → decodeHost w = none)) ∧
    (opField w = 0x03#8 → (decodeHost w = some (.skey b) ↔ w = 0x03000000#32 ||| bw) ∧
      (w ≠ 0x03000000#32 → w ≠ 0x03000001#32 → decodeHost w = none))

/-- R163, R164: LTXE and LKEY drive the flag on bit 0 of `HRSP`, bits 31:1 zero, and change nothing else
but the history, while `SEQ` = 0; else no step (R10, R64), answered with the same state (log 2). `HRSP` as a
latch is the model's (log 6). The one legal word of each is the only word with its code. -/
def Obligations.FlagReadCommands : Prop :=
  ∀ (s : State) (w : Word),
    (s.seq = 0#2 →
      exec .ltxe s = .next
        { s with ports := { s.ports with hrsp := if s.txen then 1#32 else 0#32 },
                 hist := s.hist ++ [0x04000000#32] } ∧
      exec .lkey s = .next
        { s with ports := { s.ports with hrsp := if s.key then 1#32 else 0#32 },
                 hist := s.hist ++ [0x05000000#32] }) ∧
    (s.seq ≠ 0#2 → exec .ltxe s = .next s ∧ exec .lkey s = .next s) ∧
    (opField w = 0x04#8 → decodeHost w = if w = 0x04000000#32 then some .ltxe else none) ∧
    (opField w = 0x05#8 → decodeHost w = if w = 0x05000000#32 then some .lkey else none)

/-- R165: who may write the flags. A flag that changes was changed by STXE or SKEY with `SEQ` = 0, or by a
flag write the modem returned from the NEWIN of a CAPT or the REQOUT of a PLAY; a modem that returns empty
lists writes none. The answer is read from the model's `MRSP` latch (log 6). -/
def Obligations.FlagWritersAreHostAndModem : Prop :=
  ∀ (i : Instr) (s t : State), exec i s = .next t →
    (t.txen ≠ s.txen → (i = .stxe t.txen ∧ s.seq = 0#2) ∨
      ((i = .capt ∧ s.seq = 2#2) ∨ (i = .play ∧ s.seq = 3#2 ∧ s.txen = true)) ∧
        ⟨.txen, t.txen⟩ ∈ t.ports.mrspWrites) ∧
    (t.key ≠ s.key → (i = .skey t.key ∧ s.seq = 0#2) ∨
      ((i = .capt ∧ s.seq = 2#2) ∨ (i = .play ∧ s.seq = 3#2 ∧ s.txen = true)) ∧
        ⟨.key, t.key⟩ ∈ t.ports.mrspWrites)

/-- R67: the flag writes of an answer are applied in list order, so the last write of a flag decides. The answer
is queued in State (log 7). -/
def Obligations.LastFlagWriteWins : Prop :=
  ∀ (s : State) (l₁ l₂ : List FlagWrite) (f : FlagWrite) (rest : List (List FlagWrite)),
    s.seq = 2#2 → s.env.newins = (l₁ ++ f :: l₂) :: rest → (∀ g ∈ l₂, g.flag ≠ f.flag) →
    ∃ t, exec .capt s = .next t ∧
      (f.flag = .txen → t.txen = f.value) ∧ (f.flag = .key → t.key = f.value)

/-! ### interrupt_dispatcher (44_dispatcher) -/

/-- R171, R212: DISP consumes the request and selects micro-ROM word 0, saving nothing; without its guard
there is no step (R10), which the model answers with the same state (log 2). -/
def Obligations.DispEntersDispatcher : Prop :=
  ∀ s : State,
    (s.adcf = true → s.adcIe = true → s.seq = 0#2 →
      exec .disp s = .next { s with adcf := false, seq := 1#2, hist := s.hist ++ [0x43000000#32] }) ∧
    (s.adcf = false ∨ s.adcIe = false ∨ s.seq ≠ 0#2 → exec .disp s = .next s)

/-- R173: ACK clears the tick flag and moves `SEQ` to 2; with `SEQ` ≠ 1 there is no step (R10), which the
model answers with the same state (log 2). -/
def Obligations.AckClearsTickFlag : Prop :=
  ∀ s : State,
    (s.seq = 1#2 →
      exec .ack s = .next { s with tickf := false, seq := 2#2, hist := s.hist ++ [0x20000000#32] }) ∧
    (s.seq ≠ 1#2 → exec .ack s = .next s)

/-- R175: four turns of the DISPATCHER in a row carry a pending invocation to its end, with DISP, ACK,
CAPT, RDIN, NEWIN, PLAY, REQOUT if `TXEN` was 1 when PLAY read it, WROUT in the history and nothing else;
the playback decision uses the flags in force after the modem's answer `fw` to NEWIN. Turns and answers are
queued in State (logs 1 and 7). -/
def Obligations.InvocationRunsToCompletion : Prop :=
  ∀ (s : State) (rest : List Turn) (fw : List FlagWrite) (news : List (List FlagWrite)) (v : Byte)
    (fw' : List FlagWrite) (reqs : List (Byte × List FlagWrite)),
    s.env.inner = none → s.adcf = true → s.adcIe = true → s.seq = 0#2 →
    s.env.agenda = .dispatcher :: .dispatcher :: .dispatcher :: .dispatcher :: rest →
    s.env.newins = fw :: news → s.env.reqouts = (v, fw') :: reqs →
    let x : Int := (s.adcData.toNat / 4 : Nat) - 128
    let txen := fw.foldl (fun b f => if f.flag = .txen then f.value else b) s.txen
    let key := fw.foldl (fun b f => if f.flag = .key then f.value else b) s.key
    let byte : Byte := if txen then (v &&& 0xF0#8) ||| 0x08#8 else if key then 0x88#8 else 0x80#8
    ∃ t, Host.Core.run Sys2Proof.core 4 s = .next t ∧
      t.seq = 0#2 ∧ t.adcf = false ∧ t.tickf = false ∧ t.sample = BitVec.ofInt 16 x ∧ t.out = byte ∧
      t.env.agenda = rest ∧
      t.hist = s.hist ++ [0x43000000#32, 0x20000000#32, 0x21000000#32, 0x13000000#32,
          encode (.newin s.modem x), 0x22000000#32] ++
        (if txen then [encode (.reqout s.modem)] else []) ++ [encode (.wrout byte)]

/-- R174, R175: while an invocation is under way, a step of any agent but the DISPATCHER (and RESET) adds at
most a CLK word to the history and leaves `SEQ`, the flags and `OUT` alone. -/
def Obligations.OnlyClkInterleavesInvocation : Prop :=
  ∀ s t : State, BlockInv s → s.seq ≠ 0#2 → s.env.turn ≠ .dispatcher → s.env.turn ≠ .resetLine →
    step s = .next t →
    (t.hist = s.hist ∨ t.hist = s.hist ++ [0x40000000#32]) ∧ t.seq = s.seq ∧ t.txen = s.txen ∧
    t.key = s.key ∧ t.out = s.out ∧ t.fault = s.fault ∧ t.env.hcmd = s.env.hcmd

/-- R41, R215: `SEQ` changes only by DISP (0 to 1), ACK (1 to 2), CAPT (2 to 3) and PLAY (3 to 0). -/
def Obligations.SequencerTransitions : Prop :=
  ∀ (i : Instr) (s t : State), exec i s = .next t → t.seq ≠ s.seq →
    (i = .disp ∧ s.seq = 0#2 ∧ t.seq = 1#2) ∨ (i = .ack ∧ s.seq = 1#2 ∧ t.seq = 2#2) ∨
    (i = .capt ∧ s.seq = 2#2 ∧ t.seq = 3#2) ∨ (i = .play ∧ s.seq = 3#2 ∧ t.seq = 0#2)

/-! ### Initialization (45_host_init) -/

/-- R187, R202 to R205: the first failing check, in order, sets its `FAULT` bit; the word is recorded and
nothing else changes; the fault is a next state (log 13). With `SEQ` ≠ 0 there is no step (R64, R10), which
the model answers with the same state (log 2). -/
def Obligations.InitRejectsByFirstFailingCheck : Prop :=
  ∀ (ch : Channel) (hd : Handle) (s : State),
    let w := 0x01000000#32 ||| (hd.setWidth 32 <<< 16) ||| ch.setWidth 32
    let faulted (b : BitVec 5) : State := { s with fault := s.fault ||| b, hist := s.hist ++ [w] }
    let badDivisor := reloadConst s.params < 0 ∨ 65535 < reloadConst s.params
    (s.seq = 0#2 → hd = 0#8 → exec (.init ch hd) s = .next (faulted 0b00001#5)) ∧
    (s.seq = 0#2 → hd ≠ 0#8 → s.params.nChan ≤ ch.toNat →
      exec (.init ch hd) s = .next (faulted 0b00010#5)) ∧
    (s.seq = 0#2 → hd ≠ 0#8 → ch.toNat < s.params.nChan → badDivisor →
      exec (.init ch hd) s = .next (faulted 0b00100#5)) ∧
    (s.seq = 0#2 → hd ≠ 0#8 → ch.toNat < s.params.nChan → ¬ badDivisor → s.inited = true →
      (ch ≠ s.chan ∨ hd ≠ s.modem) → exec (.init ch hd) s = .next (faulted 0b01000#5)) ∧
    (s.seq ≠ 0#2 → exec (.init ch hd) s = .next s)

/-- R186, R188, R189: an INIT that passes the four checks programs the three sub-blocks, stores the handle,
records INIT, CFGCLK, CFGADC, and leaves everything else alone, the flags and `OUT` among it. -/
def Obligations.InitStartsSession : Prop :=
  ∀ (ch : Channel) (hd : Handle) (s : State),
    s.seq = 0#2 → hd ≠ 0#8 → ch.toNat < s.params.nChan →
    0 ≤ reloadConst s.params → reloadConst s.params ≤ 65535 →
    (s.inited = true → ch = s.chan ∧ hd = s.modem) →
    exec (.init ch hd) s = .next
      { s with
        reload := BitVec.ofInt 16 (reloadConst s.params), cnt := 0#16, tmrEn := true, adcRef := true,
        chan := ch, pinIn := s.pinIn ||| (1#16 <<< ch.toNat), dinDis := s.dinDis ||| (1#16 <<< ch.toNat),
        adcAte := true, adcIe := true, adcEn := true, outEn := true, modem := hd, inited := true,
        hist := s.hist ++
          [ 0x01000000#32 ||| (hd.setWidth 32 <<< 16) ||| ch.setWidth 32,
            0x10000000#32 ||| (BitVec.ofInt 16 (reloadConst s.params)).setWidth 32,
            0x11000000#32 ||| ch.setWidth 32 ] }

/-- R190: in a running session a second INIT with the same operands passes and changes `CNT`, which becomes
0, and the history only. -/
def Obligations.InitIsIdempotent : Prop :=
  ∀ s : State, BlockInv s → s.inited = true → s.seq = 0#2 →
    exec (.init s.chan s.modem) s = .next
      { s with cnt := 0#16,
               hist := s.hist ++ [encode (.init s.chan s.modem), encode (.cfgclk s.reload),
                 encode (.cfgadc s.chan)] }

/-- R27, R35, R191: once a session has started, no step but RESET changes the channel, the modem handle,
the divisor or any other configuration register. -/
def Obligations.SessionConfigurationImmutable : Prop :=
  ∀ s t : State, BlockInv s → s.inited = true → s.env.turn ≠ .resetLine → step s = .next t →
    t.chan = s.chan ∧ t.modem = s.modem ∧ t.reload = s.reload ∧ t.inited = true ∧ t.tmrEn = s.tmrEn ∧
    t.adcEn = s.adcEn ∧ t.adcRef = s.adcRef ∧ t.adcAte = s.adcAte ∧ t.adcIe = s.adcIe ∧
    t.pinIn = s.pinIn ∧ t.dinDis = s.dinDis ∧ t.outEn = s.outEn

/-! ### Faults (60_exceptions) -/

/-- R10, R200, R201, R207: no operation is refused, and the one fault that stops the machine is OVERRUN, raised
exactly by a CLK that is a tick while the service of the previous tick is unfinished. That the other causes
are next states is the model's reading (log 13). -/
def Obligations.OnlyOverrunStops : Prop :=
  ∀ (i : Instr) (s : State),
    (∀ r, exec i s ≠ .refused r) ∧
    (∀ f, exec i s = .fault f ↔
      i = .clk ∧ s.tmrEn = true ∧ s.cnt = s.reload ∧
        (s.tickf = true ∨ s.adcBusy = true ∨ s.adcf = true ∨ s.seq ≠ 0#2))

/-- R42: a `FAULT` bit, once set, is cleared by no step but RESET. -/
def Obligations.FaultBitsAreSticky : Prop :=
  ∀ s t : State, (s.env.inner = none → s.env.turn ≠ .resetLine) → step s = .next t →
    s.fault &&& t.fault = s.fault

/-- R200, R214: a step that sets a `FAULT` bit is an INIT or an illegal host word with `SEQ` = 0, and
changes no register but `FAULT`. That the fault is a next state is the model's reading (log 13). -/
def Obligations.FaultingStepChangesOnlyFault : Prop :=
  ∀ s t : State, (s.env.inner = none → s.env.turn ≠ .resetLine) → step s = .next t →
    t.fault ≠ s.fault →
    s.seq = 0#2 ∧ ∃ w, t = { s with fault := t.fault, hist := s.hist ++ [w], env := t.env }

/-! ### The whole machine (10_state, 20_memory) -/

/-- R45: the reset values, for any parameters and any value of the two unspecified registers. -/
def Obligations.ResetValues : Prop :=
  ∀ (p : Params) (d : Raw) (x : Half),
    let s := State.resetWith p d x
    s.reload = 0#16 ∧ s.cnt = 0#16 ∧ s.tmrEn = false ∧ s.tickf = false ∧ s.adcEn = false ∧
    s.adcRef = false ∧ s.chan = 0#4 ∧ s.adcAte = false ∧ s.adcIe = false ∧ s.pinIn = 0#16 ∧
    s.dinDis = 0#16 ∧ s.adcBusy = false ∧ s.adcData = d ∧ s.adcf = false ∧ s.sample = x ∧
    s.modem = 0#8 ∧ s.inited = false ∧ s.txen = false ∧ s.key = false ∧ s.out = 0#8 ∧
    s.outEn = false ∧ s.seq = 0#2 ∧ s.fault = 0#5 ∧ s.hist = [] ∧
    dacPins s = none ∧ pttPin s = none ∧ hrdy s = true

/-- R21 to R42: each register is written by the operations its rule names and by no other. The clauses on
`HRSP` and `MOUT`, signals kept in latches, are the model's (log 6), and so is the one on the parameters, which
State carries (log 3). -/
def Obligations.RegistersHaveOnlyTheirWriters : Prop :=
  ∀ (i : Instr) (s t : State), exec i s = .next t →
    (i.op ∉ [Op.cfgclk, .init] → t.reload = s.reload ∧ t.tmrEn = s.tmrEn) ∧
    (i.op ∉ [Op.clk, .cfgclk, .init] → t.cnt = s.cnt) ∧
    (i.op ∉ [Op.clk, .ack] → t.tickf = s.tickf) ∧
    (i.op ∉ [Op.cfgadc, .init] → t.adcEn = s.adcEn ∧ t.adcRef = s.adcRef ∧ t.chan = s.chan ∧
      t.adcAte = s.adcAte ∧ t.adcIe = s.adcIe ∧ t.pinIn = s.pinIn ∧ t.dinDis = s.dinDis) ∧
    (i.op ∉ [Op.clk, .trig, .conv] → t.adcBusy = s.adcBusy) ∧
    (i.op ∉ [Op.conv] → t.adcData = s.adcData) ∧
    (i.op ∉ [Op.conv, .disp] → t.adcf = s.adcf) ∧
    (i.op ∉ [Op.capt] → t.sample = s.sample) ∧
    (i.op ∉ [Op.init] → t.modem = s.modem ∧ t.inited = s.inited ∧ t.outEn = s.outEn ∧
      t.fault = s.fault) ∧
    (i.op ∉ [Op.wrout, .play] → t.out = s.out) ∧
    (i.op ∉ [Op.ltxe, .lkey] → t.ports.hrsp = s.ports.hrsp) ∧
    (i.op ∉ [Op.newin, .capt, .reqout, .play] → t.ports.mout = s.ports.mout) ∧
    t.params = s.params

/-- R70: no step but RESET removes or changes a word of the history. -/
def Obligations.HistoryOnlyGrows : Prop :=
  ∀ s t : State, (s.env.inner = none → s.env.turn ≠ .resetLine) → step s = .next t → s.hist <+: t.hist

/-- R7, R43: no step, RESET among them, changes a parameter; State carries them by the model's choice (log 3). -/
def Obligations.ParametersNeverChange : Prop :=
  ∀ s t : State, step s = .next t → t.params = s.params

/-- R44: the six relations, with their background, are kept by every step. -/
def Obligations.RelationsKeptByEveryStep : Prop :=
  ∀ s t : State, BlockInv s → step s = .next t → BlockInv t

/-- R44, R45: the relations hold right after reset, and so does the order of the (empty) history. -/
def Obligations.RelationsHoldAtReset : Prop :=
  ∀ (p : Params) (d : Raw) (x : Half), BlockInv (State.resetWith p d x) ∧ Ordered (State.resetWith p d x)

/-- R72, R129, R175: every step keeps the order of the history. Each tick's TRIG is followed by one CONV,
DISP, ACK, CAPT, RDIN, NEWIN, PLAY, at most one REQOUT, one WROUT, in that order; host commands stand only
outside an invocation, CLK words only between steps; and the registers show how far the service is. -/
def Obligations.HistoryKeepsServiceOrder : Prop :=
  ∀ s t : State, BlockInv s → Ordered s → step s = .next t → Ordered t

/-! ### What eventually happens in a fair run (R124, R171, R174) -/

/-- R124: weak fairness of CONV: a conversion in flight completes, unless RESET abandons it (log 11). The
runs are infinite and fair (log 15), with any input of the environment at any step. -/
def Obligations.ConversionInFlightCompletes : Prop :=
  ∀ (σ : Nat → Turn) (r : Nat → State) (n : Nat), FairRun σ r → (r n).adcBusy = true →
    ∃ m, n ≤ m ∧ (σ m = .resetLine ∨
      (σ m = .converter ∧ (r m).adcBusy = true ∧ (r (m + 1)).adcBusy = false ∧ (r (m + 1)).adcf = true ∧
        (r (m + 1)).hist = (r m).hist ++ [encode (.conv (r (m + 1)).adcData)]))

/-- R171: weak fairness of DISP: a pending invocation is entered, unless RESET abandons it (log 11). -/
def Obligations.PendingInvocationIsEntered : Prop :=
  ∀ (σ : Nat → Turn) (r : Nat → State) (n : Nat), FairRun σ r →
    (r n).adcf = true → (r n).adcIe = true → (r n).seq = 0#2 →
    ∃ m, n ≤ m ∧ (σ m = .resetLine ∨
      (σ m = .dispatcher ∧ (r m).seq = 0#2 ∧ (r m).adcf = true ∧ (r (m + 1)).adcf = false ∧
        (r (m + 1)).seq = 1#2 ∧ (r (m + 1)).hist = (r m).hist ++ [0x43000000#32]))

/-- R174: weak fairness of ACK, CAPT and PLAY: an invocation that has begun does end, by the PLAY that brings
`SEQ` from 3 to 0, unless RESET abandons it (log 11). -/
def Obligations.BegunInvocationEnds : Prop :=
  ∀ (σ : Nat → Turn) (r : Nat → State) (n : Nat), FairRun σ r → (r n).seq ≠ 0#2 →
    ∃ m, n ≤ m ∧ (σ m = .resetLine ∨
      (σ m = .dispatcher ∧ (r m).seq = 3#2 ∧ (r (m + 1)).seq = 0#2 ∧
        ∃ ws, (r (m + 1)).hist = (r m).hist ++ 0x22000000#32 :: ws ++ [encode (.wrout (r (m + 1)).out)]))

/-- R72 item 5, R129, R146: in a fair run from a state of the block invariant, a tick whose service is open
(`TICKF` = 1) is served to the end: a CAPT and then a PLAY follow, unless RESET comes first (log 11). -/
def Obligations.EveryTickIsServed : Prop :=
  ∀ (σ : Nat → Turn) (r : Nat → State) (n : Nat), FairRun σ r → BlockInv (r 0) → (r n).tickf = true →
    (∃ m, n ≤ m ∧ σ m = .resetLine) ∨
    ∃ k m, n ≤ k ∧ k < m ∧
      (σ k = .dispatcher ∧ (r k).seq = 2#2 ∧ (r (k + 1)).seq = 3#2) ∧
      (σ m = .dispatcher ∧ (r m).seq = 3#2 ∧ (r (m + 1)).seq = 0#2) ∧
      ∀ j, k < j → j ≤ m → (r j).seq = 3#2
end

