-- ==== Sys2Proof/Laws/Encoding.lean ====
section
/-! SUPPORT. Operation words by their fields (R80), the opcode table's tests field by field (R84, R85), and
the words in the form R95 prints them. -/

namespace Sys2Proof

/-- The number a word stands for, from its three fields (R80). -/
theorem toNat_mkWord (op : Byte) (h : Handle) (arg : Half) :
    (mkWord op h arg).toNat = op.toNat * 2 ^ 24 + h.toNat * 2 ^ 16 + arg.toNat := by
  have ha := arg.isLt
  have hh := h.isLt
  unfold mkWord
  rw [BitVec.toNat_append, BitVec.toNat_append, ← Nat.shiftLeft_add_eq_or_of_lt hh,
    ← Nat.shiftLeft_add_eq_or_of_lt ha, Nat.shiftLeft_eq, Nat.shiftLeft_eq]
  omega

@[simp] theorem opField_mkWord (op : Byte) (h : Handle) (arg : Half) : opField (mkWord op h arg) = op := by
  apply BitVec.eq_of_toNat_eq
  simp only [opField, BitVec.extractLsb'_toNat, toNat_mkWord, Nat.shiftRight_eq_div_pow]
  omega

@[simp] theorem hField_mkWord (op : Byte) (h : Handle) (arg : Half) : hField (mkWord op h arg) = h := by
  apply BitVec.eq_of_toNat_eq
  simp only [hField, BitVec.extractLsb'_toNat, toNat_mkWord, Nat.shiftRight_eq_div_pow]
  omega

@[simp] theorem argField_mkWord (op : Byte) (h : Handle) (arg : Half) : argField (mkWord op h arg) = arg := by
  apply BitVec.eq_of_toNat_eq
  simp only [argField, BitVec.extractLsb'_toNat, toNat_mkWord, Nat.shiftRight_eq_div_pow]
  omega

/-- Every word is made of its three fields. -/
theorem mkWord_fields (w : Word) : mkWord (opField w) (hField w) (argField w) = w := by
  apply BitVec.eq_of_toNat_eq
  simp only [opField, hField, argField, BitVec.extractLsb'_toNat, toNat_mkWord, Nat.shiftRight_eq_div_pow]
  have := w.isLt
  omega

/-- Two words are equal exactly when their fields are. -/
theorem mkWord_inj {op op' : Byte} {h h' : Handle} {arg arg' : Half} :
    mkWord op h arg = mkWord op' h' arg' ↔ op = op' ∧ h = h' ∧ arg = arg' := by
  constructor
  · intro e
    exact ⟨by simpa using congrArg opField e, by simpa using congrArg hField e,
      by simpa using congrArg argField e⟩
  · rintro ⟨rfl, rfl, rfl⟩; rfl

/-- Bitwise and works field by field. -/
theorem mkWord_and (op : Byte) (h : Handle) (arg : Half) (op' : Byte) (h' : Handle) (arg' : Half) :
    mkWord op h arg &&& mkWord op' h' arg' = mkWord (op &&& op') (h &&& h') (arg &&& arg') := by
  unfold mkWord
  rw [BitVec.and_append, BitVec.and_append]

/-- A table row's test on a word, field by field. -/
theorem row_test (op p : Byte) (h mh : Handle) (arg ma : Half) :
    (mkWord op h arg &&& mkWord 0xFF#8 mh ma == mkWord p 0#8 0#16) =
      (op == p && (h &&& mh == 0#8 && arg &&& ma == 0#16)) := by
  have e : op &&& 0xFF#8 = op := BitVec.and_allOnes
  rw [mkWord_and, e, Bool.eq_iff_iff]
  simp [mkWord_inj]

/-- The opcode table (R84) with its words cut into fields. -/
theorem opcodeTable_eq : opcodeTable =
  [ ⟨.init,   mkWord 0x01#8 0#8 0#16, mkWord 0xFF#8 0x00#8 0xFFF0#16⟩,
    ⟨.stxe,   mkWord 0x02#8 0#8 0#16, mkWord 0xFF#8 0xFF#8 0xFFFE#16⟩,
    ⟨.skey,   mkWord 0x03#8 0#8 0#16, mkWord 0xFF#8 0xFF#8 0xFFFE#16⟩,
    ⟨.ltxe,   mkWord 0x04#8 0#8 0#16, mkWord 0xFF#8 0xFF#8 0xFFFF#16⟩,
    ⟨.lkey,   mkWord 0x05#8 0#8 0#16, mkWord 0xFF#8 0xFF#8 0xFFFF#16⟩,
    ⟨.cfgclk, mkWord 0x10#8 0#8 0#16, mkWord 0xFF#8 0xFF#8 0x0000#16⟩,
    ⟨.cfgadc, mkWord 0x11#8 0#8 0#16, mkWord 0xFF#8 0xFF#8 0xFFF0#16⟩,
    ⟨.wrout,  mkWord 0x12#8 0#8 0#16, mkWord 0xFF#8 0xFF#8 0xFF00#16⟩,
    ⟨.rdin,   mkWord 0x13#8 0#8 0#16, mkWord 0xFF#8 0xFF#8 0xFFFF#16⟩,
    ⟨.ack,    mkWord 0x20#8 0#8 0#16, mkWord 0xFF#8 0xFF#8 0xFFFF#16⟩,
    ⟨.capt,   mkWord 0x21#8 0#8 0#16, mkWord 0xFF#8 0xFF#8 0xFFFF#16⟩,
    ⟨.play,   mkWord 0x22#8 0#8 0#16, mkWord 0xFF#8 0xFF#8 0xFFFF#16⟩,
    ⟨.newin,  mkWord 0x30#8 0#8 0#16, mkWord 0xFF#8 0x00#8 0x0000#16⟩,
    ⟨.reqout, mkWord 0x31#8 0#8 0#16, mkWord 0xFF#8 0x00#8 0xFFFF#16⟩,
    ⟨.clk,    mkWord 0x40#8 0#8 0#16, mkWord 0xFF#8 0xFF#8 0xFFFF#16⟩,
    ⟨.trig,   mkWord 0x41#8 0#8 0#16, mkWord 0xFF#8 0xFF#8 0xFFFF#16⟩,
    ⟨.conv,   mkWord 0x42#8 0#8 0#16, mkWord 0xFF#8 0xFF#8 0xFC00#16⟩,
    ⟨.disp,   mkWord 0x43#8 0#8 0#16, mkWord 0xFF#8 0xFF#8 0xFFFF#16⟩ ] := by decide

/-- Bits 3:0 of a word are those of its `arg` field. -/
theorem extract4_mkWord (op : Byte) (h : Handle) (arg : Half) :
    (mkWord op h arg).extractLsb' 0 4 = arg.setWidth 4 := by
  apply BitVec.eq_of_toNat_eq
  simp only [BitVec.extractLsb'_toNat, toNat_mkWord, BitVec.toNat_setWidth]
  omega

/-- Bits 7:0 of a word are those of its `arg` field. -/
theorem extract8_mkWord (op : Byte) (h : Handle) (arg : Half) :
    (mkWord op h arg).extractLsb' 0 8 = arg.setWidth 8 := by
  apply BitVec.eq_of_toNat_eq
  simp only [BitVec.extractLsb'_toNat, toNat_mkWord, BitVec.toNat_setWidth]
  omega

/-- Bits 9:0 of a word are those of its `arg` field. -/
theorem extract10_mkWord (op : Byte) (h : Handle) (arg : Half) :
    (mkWord op h arg).extractLsb' 0 10 = arg.setWidth 10 := by
  apply BitVec.eq_of_toNat_eq
  simp only [BitVec.extractLsb'_toNat, toNat_mkWord, BitVec.toNat_setWidth]
  omega

/-- Bit 0 of a word is that of its `arg` field. -/
theorem bit0_mkWord (op : Byte) (h : Handle) (arg : Half) :
    (mkWord op h arg).getLsbD 0 = arg.getLsbD 0 := by
  rw [BitVec.getLsbD, BitVec.getLsbD, toNat_mkWord, Nat.testBit_zero, Nat.testBit_zero]
  congr 1
  rw [eq_iff_iff]
  omega

/-- A word as the bitwise or of its shifted fields, the form R95 prints. -/
theorem mkWord_eq_or (op : Byte) (h : Handle) (arg : Half) :
    mkWord op h arg = (op.setWidth 32 <<< 24) ||| (h.setWidth 32 <<< 16) ||| arg.setWidth 32 := by
  have ha := arg.isLt
  have hh := h.isLt
  have ho := op.isLt
  apply BitVec.eq_of_toNat_eq
  simp only [BitVec.toNat_or, BitVec.toNat_shiftLeft, BitVec.toNat_setWidth, toNat_mkWord]
  rw [Nat.mod_eq_of_lt (a := op.toNat) (by omega), Nat.mod_eq_of_lt (a := h.toNat) (by omega),
    Nat.mod_eq_of_lt (a := arg.toNat) (by omega), Nat.mod_eq_of_lt (by rw [Nat.shiftLeft_eq]; omega),
    Nat.mod_eq_of_lt (by rw [Nat.shiftLeft_eq]; omega)]
  have e : op.toNat <<< 24 = op.toNat <<< 8 <<< 16 := by rw [← Nat.shiftLeft_add]
  rw [e, ← Nat.shiftLeft_or_distrib, ← Nat.shiftLeft_add_eq_or_of_lt hh,
    ← Nat.shiftLeft_add_eq_or_of_lt ha, Nat.shiftLeft_eq, Nat.shiftLeft_eq]
  omega

/-! ### The must-be-zero bits of the operand fields (R85) -/

theorem channel_high_zero (ch : Channel) : ch.setWidth 16 &&& 0xFFF0#16 = 0#16 := by
  revert ch; decide

theorem flag_high_zero (b : Bool) : (BitVec.ofBool b).setWidth 16 &&& 0xFFFE#16 = 0#16 := by
  revert b; decide

theorem byte_high_zero (v : Byte) : v.setWidth 16 &&& 0xFF00#16 = 0#16 := by
  revert v; decide

theorem raw_high_zero (r : Raw) : r.setWidth 16 &&& 0xFC00#16 = 0#16 := by
  ext i hi
  simp only [BitVec.getElem_and, BitVec.getElem_setWidth, BitVec.getElem_zero]
  by_cases h : i < 10
  · have : ∀ j : Fin 10, (0xFC00#16).getLsbD j = false := by decide
    have e := this ⟨i, h⟩
    rw [BitVec.getLsbD_eq_getElem (by omega)] at e
    simp [e]
  · simp [BitVec.getLsbD_of_ge r i (by omega)]

/-! ### The operation words as R95 prints them -/

/-- Widening an operand to `arg` and then to a word is widening it to a word. -/
theorem setWidth_widen {n : Nat} (v : BitVec n) (h : n ≤ 16) :
    (v.setWidth 16).setWidth 32 = v.setWidth 32 := by
  apply BitVec.eq_of_toNat_eq
  have h1 := v.isLt
  have h2 : 2 ^ n ≤ 2 ^ 16 := Nat.pow_le_pow_right (by decide) h
  simp only [BitVec.toNat_setWidth]
  omega

theorem encode_init (ch : Channel) (hd : Handle) :
    encode (.init ch hd) = 0x01000000#32 ||| (hd.setWidth 32 <<< 16) ||| ch.setWidth 32 := by
  rw [encode, mkWord_eq_or, setWidth_widen _ (by decide)]
  rfl

theorem encode_stxe (b : Bool) : encode (.stxe b) = 0x02000000#32 ||| (BitVec.ofBool b).setWidth 32 := by
  cases b <;> decide

theorem encode_skey (b : Bool) : encode (.skey b) = 0x03000000#32 ||| (BitVec.ofBool b).setWidth 32 := by
  cases b <;> decide

theorem encode_cfgclk (d : Half) : encode (.cfgclk d) = 0x10000000#32 ||| d.setWidth 32 := by
  rw [encode, mkWord_eq_or]; rfl

theorem encode_cfgadc (ch : Channel) : encode (.cfgadc ch) = 0x11000000#32 ||| ch.setWidth 32 := by
  rw [encode, mkWord_eq_or, setWidth_widen _ (by decide)]; rfl

theorem encode_wrout (v : Byte) : encode (.wrout v) = 0x12000000#32 ||| v.setWidth 32 := by
  rw [encode, mkWord_eq_or, setWidth_widen _ (by decide)]; rfl

theorem encode_newin (hd : Handle) (x : Int) :
    encode (.newin hd x) = 0x30000000#32 ||| (hd.setWidth 32 <<< 16) ||| (BitVec.ofInt 16 x).setWidth 32 := by
  rw [encode, mkWord_eq_or]; rfl

theorem encode_reqout (hd : Handle) : encode (.reqout hd) = 0x31000000#32 ||| (hd.setWidth 32 <<< 16) := by
  rw [encode, mkWord_eq_or]
  simp

theorem encode_conv (raw : Raw) : encode (.conv raw) = 0x42000000#32 ||| raw.setWidth 32 := by
  rw [encode, mkWord_eq_or, setWidth_widen _ (by decide)]; rfl

theorem encode_ltxe : encode .ltxe = 0x04000000#32 := by decide

theorem encode_lkey : encode .lkey = 0x05000000#32 := by decide

theorem encode_rdin : encode .rdin = 0x13000000#32 := by decide

theorem encode_ack : encode .ack = 0x20000000#32 := by decide

theorem encode_capt : encode .capt = 0x21000000#32 := by decide

theorem encode_play : encode .play = 0x22000000#32 := by decide

theorem encode_clk : encode .clk = 0x40000000#32 := by decide

theorem encode_trig : encode .trig = 0x41000000#32 := by decide

theorem encode_disp : encode .disp = 0x43000000#32 := by decide

/-- The `op` field of every operation word (R84). -/
theorem opField_encode (i : Instr) :
    opField (encode i) = match i.op with
      | .init => 0x01#8 | .stxe => 0x02#8 | .skey => 0x03#8 | .ltxe => 0x04#8 | .lkey => 0x05#8
      | .cfgclk => 0x10#8 | .cfgadc => 0x11#8 | .wrout => 0x12#8 | .rdin => 0x13#8
      | .ack => 0x20#8 | .capt => 0x21#8 | .play => 0x22#8 | .newin => 0x30#8 | .reqout => 0x31#8
      | .clk => 0x40#8 | .trig => 0x41#8 | .conv => 0x42#8 | .disp => 0x43#8 := by
  cases i <;> exact opField_mkWord _ _ _

/-- No two rows of the opcode table match one word: some bit both masks fix differs (R84). -/
theorem opcodeTable_disjoint :
    opcodeTable.Pairwise fun a b => (a.pattern ^^^ b.pattern) &&& (a.mask &&& b.mask) ≠ 0#32 := by
  decide

end Sys2Proof
end

