-- ==== Sys2Proof/Laws/State.lean ====
section
/-! SUPPORT. One lemma for each field and each update of the state, so that no later proof unfolds a record
update. Listed by update; within one, in the order of State's fields. -/

namespace Sys2Proof.Machine

/-! ### recordWord -/

@[simp] theorem recordWord_reload (w : Word) (s : State) : (recordWord w s).reload = s.reload := rfl
@[simp] theorem recordWord_cnt (w : Word) (s : State) : (recordWord w s).cnt = s.cnt := rfl
@[simp] theorem recordWord_tmrEn (w : Word) (s : State) : (recordWord w s).tmrEn = s.tmrEn := rfl
@[simp] theorem recordWord_tickf (w : Word) (s : State) : (recordWord w s).tickf = s.tickf := rfl
@[simp] theorem recordWord_adcEn (w : Word) (s : State) : (recordWord w s).adcEn = s.adcEn := rfl
@[simp] theorem recordWord_adcRef (w : Word) (s : State) : (recordWord w s).adcRef = s.adcRef := rfl
@[simp] theorem recordWord_chan (w : Word) (s : State) : (recordWord w s).chan = s.chan := rfl
@[simp] theorem recordWord_adcAte (w : Word) (s : State) : (recordWord w s).adcAte = s.adcAte := rfl
@[simp] theorem recordWord_adcIe (w : Word) (s : State) : (recordWord w s).adcIe = s.adcIe := rfl
@[simp] theorem recordWord_pinIn (w : Word) (s : State) : (recordWord w s).pinIn = s.pinIn := rfl
@[simp] theorem recordWord_dinDis (w : Word) (s : State) : (recordWord w s).dinDis = s.dinDis := rfl
@[simp] theorem recordWord_adcBusy (w : Word) (s : State) : (recordWord w s).adcBusy = s.adcBusy := rfl
@[simp] theorem recordWord_adcData (w : Word) (s : State) : (recordWord w s).adcData = s.adcData := rfl
@[simp] theorem recordWord_adcf (w : Word) (s : State) : (recordWord w s).adcf = s.adcf := rfl
@[simp] theorem recordWord_sample (w : Word) (s : State) : (recordWord w s).sample = s.sample := rfl
@[simp] theorem recordWord_modem (w : Word) (s : State) : (recordWord w s).modem = s.modem := rfl
@[simp] theorem recordWord_inited (w : Word) (s : State) : (recordWord w s).inited = s.inited := rfl
@[simp] theorem recordWord_txen (w : Word) (s : State) : (recordWord w s).txen = s.txen := rfl
@[simp] theorem recordWord_key (w : Word) (s : State) : (recordWord w s).key = s.key := rfl
@[simp] theorem recordWord_out (w : Word) (s : State) : (recordWord w s).out = s.out := rfl
@[simp] theorem recordWord_outEn (w : Word) (s : State) : (recordWord w s).outEn = s.outEn := rfl
@[simp] theorem recordWord_seq (w : Word) (s : State) : (recordWord w s).seq = s.seq := rfl
@[simp] theorem recordWord_fault (w : Word) (s : State) : (recordWord w s).fault = s.fault := rfl
@[simp] theorem recordWord_hist (w : Word) (s : State) : (recordWord w s).hist = s.hist ++ [w] := rfl
@[simp] theorem recordWord_ports (w : Word) (s : State) : (recordWord w s).ports = s.ports := rfl
@[simp] theorem recordWord_params (w : Word) (s : State) : (recordWord w s).params = s.params := rfl
@[simp] theorem recordWord_env (w : Word) (s : State) : (recordWord w s).env = s.env := rfl

/-! ### record -/

@[simp] theorem record_reload (i : Instr) (s : State) : (record i s).reload = s.reload := rfl
@[simp] theorem record_cnt (i : Instr) (s : State) : (record i s).cnt = s.cnt := rfl
@[simp] theorem record_tmrEn (i : Instr) (s : State) : (record i s).tmrEn = s.tmrEn := rfl
@[simp] theorem record_tickf (i : Instr) (s : State) : (record i s).tickf = s.tickf := rfl
@[simp] theorem record_adcEn (i : Instr) (s : State) : (record i s).adcEn = s.adcEn := rfl
@[simp] theorem record_adcRef (i : Instr) (s : State) : (record i s).adcRef = s.adcRef := rfl
@[simp] theorem record_chan (i : Instr) (s : State) : (record i s).chan = s.chan := rfl
@[simp] theorem record_adcAte (i : Instr) (s : State) : (record i s).adcAte = s.adcAte := rfl
@[simp] theorem record_adcIe (i : Instr) (s : State) : (record i s).adcIe = s.adcIe := rfl
@[simp] theorem record_pinIn (i : Instr) (s : State) : (record i s).pinIn = s.pinIn := rfl
@[simp] theorem record_dinDis (i : Instr) (s : State) : (record i s).dinDis = s.dinDis := rfl
@[simp] theorem record_adcBusy (i : Instr) (s : State) : (record i s).adcBusy = s.adcBusy := rfl
@[simp] theorem record_adcData (i : Instr) (s : State) : (record i s).adcData = s.adcData := rfl
@[simp] theorem record_adcf (i : Instr) (s : State) : (record i s).adcf = s.adcf := rfl
@[simp] theorem record_sample (i : Instr) (s : State) : (record i s).sample = s.sample := rfl
@[simp] theorem record_modem (i : Instr) (s : State) : (record i s).modem = s.modem := rfl
@[simp] theorem record_inited (i : Instr) (s : State) : (record i s).inited = s.inited := rfl
@[simp] theorem record_txen (i : Instr) (s : State) : (record i s).txen = s.txen := rfl
@[simp] theorem record_key (i : Instr) (s : State) : (record i s).key = s.key := rfl
@[simp] theorem record_out (i : Instr) (s : State) : (record i s).out = s.out := rfl
@[simp] theorem record_outEn (i : Instr) (s : State) : (record i s).outEn = s.outEn := rfl
@[simp] theorem record_seq (i : Instr) (s : State) : (record i s).seq = s.seq := rfl
@[simp] theorem record_fault (i : Instr) (s : State) : (record i s).fault = s.fault := rfl
@[simp] theorem record_hist (i : Instr) (s : State) : (record i s).hist = s.hist ++ [encode i] := rfl
@[simp] theorem record_ports (i : Instr) (s : State) : (record i s).ports = s.ports := rfl
@[simp] theorem record_params (i : Instr) (s : State) : (record i s).params = s.params := rfl
@[simp] theorem record_env (i : Instr) (s : State) : (record i s).env = s.env := rfl

/-! ### raiseFault -/

@[simp] theorem raiseFault_reload (c : Cause) (s : State) : (raiseFault c s).reload = s.reload := rfl
@[simp] theorem raiseFault_cnt (c : Cause) (s : State) : (raiseFault c s).cnt = s.cnt := rfl
@[simp] theorem raiseFault_tmrEn (c : Cause) (s : State) : (raiseFault c s).tmrEn = s.tmrEn := rfl
@[simp] theorem raiseFault_tickf (c : Cause) (s : State) : (raiseFault c s).tickf = s.tickf := rfl
@[simp] theorem raiseFault_adcEn (c : Cause) (s : State) : (raiseFault c s).adcEn = s.adcEn := rfl
@[simp] theorem raiseFault_adcRef (c : Cause) (s : State) : (raiseFault c s).adcRef = s.adcRef := rfl
@[simp] theorem raiseFault_chan (c : Cause) (s : State) : (raiseFault c s).chan = s.chan := rfl
@[simp] theorem raiseFault_adcAte (c : Cause) (s : State) : (raiseFault c s).adcAte = s.adcAte := rfl
@[simp] theorem raiseFault_adcIe (c : Cause) (s : State) : (raiseFault c s).adcIe = s.adcIe := rfl
@[simp] theorem raiseFault_pinIn (c : Cause) (s : State) : (raiseFault c s).pinIn = s.pinIn := rfl
@[simp] theorem raiseFault_dinDis (c : Cause) (s : State) : (raiseFault c s).dinDis = s.dinDis := rfl
@[simp] theorem raiseFault_adcBusy (c : Cause) (s : State) : (raiseFault c s).adcBusy = s.adcBusy := rfl
@[simp] theorem raiseFault_adcData (c : Cause) (s : State) : (raiseFault c s).adcData = s.adcData := rfl
@[simp] theorem raiseFault_adcf (c : Cause) (s : State) : (raiseFault c s).adcf = s.adcf := rfl
@[simp] theorem raiseFault_sample (c : Cause) (s : State) : (raiseFault c s).sample = s.sample := rfl
@[simp] theorem raiseFault_modem (c : Cause) (s : State) : (raiseFault c s).modem = s.modem := rfl
@[simp] theorem raiseFault_inited (c : Cause) (s : State) : (raiseFault c s).inited = s.inited := rfl
@[simp] theorem raiseFault_txen (c : Cause) (s : State) : (raiseFault c s).txen = s.txen := rfl
@[simp] theorem raiseFault_key (c : Cause) (s : State) : (raiseFault c s).key = s.key := rfl
@[simp] theorem raiseFault_out (c : Cause) (s : State) : (raiseFault c s).out = s.out := rfl
@[simp] theorem raiseFault_outEn (c : Cause) (s : State) : (raiseFault c s).outEn = s.outEn := rfl
@[simp] theorem raiseFault_seq (c : Cause) (s : State) : (raiseFault c s).seq = s.seq := rfl
@[simp] theorem raiseFault_fault (c : Cause) (s : State) : (raiseFault c s).fault = s.fault ||| c.bit := rfl
@[simp] theorem raiseFault_hist (c : Cause) (s : State) : (raiseFault c s).hist = s.hist := rfl
@[simp] theorem raiseFault_ports (c : Cause) (s : State) : (raiseFault c s).ports = s.ports := rfl
@[simp] theorem raiseFault_params (c : Cause) (s : State) : (raiseFault c s).params = s.params := rfl
@[simp] theorem raiseFault_env (c : Cause) (s : State) : (raiseFault c s).env = s.env := rfl

/-! ### enterDispatcher -/

@[simp] theorem enterDispatcher_reload (s : State) : (enterDispatcher s).reload = s.reload := rfl
@[simp] theorem enterDispatcher_cnt (s : State) : (enterDispatcher s).cnt = s.cnt := rfl
@[simp] theorem enterDispatcher_tmrEn (s : State) : (enterDispatcher s).tmrEn = s.tmrEn := rfl
@[simp] theorem enterDispatcher_tickf (s : State) : (enterDispatcher s).tickf = s.tickf := rfl
@[simp] theorem enterDispatcher_adcEn (s : State) : (enterDispatcher s).adcEn = s.adcEn := rfl
@[simp] theorem enterDispatcher_adcRef (s : State) : (enterDispatcher s).adcRef = s.adcRef := rfl
@[simp] theorem enterDispatcher_chan (s : State) : (enterDispatcher s).chan = s.chan := rfl
@[simp] theorem enterDispatcher_adcAte (s : State) : (enterDispatcher s).adcAte = s.adcAte := rfl
@[simp] theorem enterDispatcher_adcIe (s : State) : (enterDispatcher s).adcIe = s.adcIe := rfl
@[simp] theorem enterDispatcher_pinIn (s : State) : (enterDispatcher s).pinIn = s.pinIn := rfl
@[simp] theorem enterDispatcher_dinDis (s : State) : (enterDispatcher s).dinDis = s.dinDis := rfl
@[simp] theorem enterDispatcher_adcBusy (s : State) : (enterDispatcher s).adcBusy = s.adcBusy := rfl
@[simp] theorem enterDispatcher_adcData (s : State) : (enterDispatcher s).adcData = s.adcData := rfl
@[simp] theorem enterDispatcher_adcf (s : State) : (enterDispatcher s).adcf = false := rfl
@[simp] theorem enterDispatcher_sample (s : State) : (enterDispatcher s).sample = s.sample := rfl
@[simp] theorem enterDispatcher_modem (s : State) : (enterDispatcher s).modem = s.modem := rfl
@[simp] theorem enterDispatcher_inited (s : State) : (enterDispatcher s).inited = s.inited := rfl
@[simp] theorem enterDispatcher_txen (s : State) : (enterDispatcher s).txen = s.txen := rfl
@[simp] theorem enterDispatcher_key (s : State) : (enterDispatcher s).key = s.key := rfl
@[simp] theorem enterDispatcher_out (s : State) : (enterDispatcher s).out = s.out := rfl
@[simp] theorem enterDispatcher_outEn (s : State) : (enterDispatcher s).outEn = s.outEn := rfl
@[simp] theorem enterDispatcher_seq (s : State) : (enterDispatcher s).seq = 1#2 := rfl
@[simp] theorem enterDispatcher_fault (s : State) : (enterDispatcher s).fault = s.fault := rfl
@[simp] theorem enterDispatcher_hist (s : State) : (enterDispatcher s).hist = s.hist := rfl
@[simp] theorem enterDispatcher_ports (s : State) : (enterDispatcher s).ports = s.ports := rfl
@[simp] theorem enterDispatcher_params (s : State) : (enterDispatcher s).params = s.params := rfl
@[simp] theorem enterDispatcher_env (s : State) : (enterDispatcher s).env = s.env := rfl

/-! ### leaveDispatcher -/

@[simp] theorem leaveDispatcher_reload (s : State) : (leaveDispatcher s).reload = s.reload := rfl
@[simp] theorem leaveDispatcher_cnt (s : State) : (leaveDispatcher s).cnt = s.cnt := rfl
@[simp] theorem leaveDispatcher_tmrEn (s : State) : (leaveDispatcher s).tmrEn = s.tmrEn := rfl
@[simp] theorem leaveDispatcher_tickf (s : State) : (leaveDispatcher s).tickf = s.tickf := rfl
@[simp] theorem leaveDispatcher_adcEn (s : State) : (leaveDispatcher s).adcEn = s.adcEn := rfl
@[simp] theorem leaveDispatcher_adcRef (s : State) : (leaveDispatcher s).adcRef = s.adcRef := rfl
@[simp] theorem leaveDispatcher_chan (s : State) : (leaveDispatcher s).chan = s.chan := rfl
@[simp] theorem leaveDispatcher_adcAte (s : State) : (leaveDispatcher s).adcAte = s.adcAte := rfl
@[simp] theorem leaveDispatcher_adcIe (s : State) : (leaveDispatcher s).adcIe = s.adcIe := rfl
@[simp] theorem leaveDispatcher_pinIn (s : State) : (leaveDispatcher s).pinIn = s.pinIn := rfl
@[simp] theorem leaveDispatcher_dinDis (s : State) : (leaveDispatcher s).dinDis = s.dinDis := rfl
@[simp] theorem leaveDispatcher_adcBusy (s : State) : (leaveDispatcher s).adcBusy = s.adcBusy := rfl
@[simp] theorem leaveDispatcher_adcData (s : State) : (leaveDispatcher s).adcData = s.adcData := rfl
@[simp] theorem leaveDispatcher_adcf (s : State) : (leaveDispatcher s).adcf = s.adcf := rfl
@[simp] theorem leaveDispatcher_sample (s : State) : (leaveDispatcher s).sample = s.sample := rfl
@[simp] theorem leaveDispatcher_modem (s : State) : (leaveDispatcher s).modem = s.modem := rfl
@[simp] theorem leaveDispatcher_inited (s : State) : (leaveDispatcher s).inited = s.inited := rfl
@[simp] theorem leaveDispatcher_txen (s : State) : (leaveDispatcher s).txen = s.txen := rfl
@[simp] theorem leaveDispatcher_key (s : State) : (leaveDispatcher s).key = s.key := rfl
@[simp] theorem leaveDispatcher_out (s : State) : (leaveDispatcher s).out = s.out := rfl
@[simp] theorem leaveDispatcher_outEn (s : State) : (leaveDispatcher s).outEn = s.outEn := rfl
@[simp] theorem leaveDispatcher_seq (s : State) : (leaveDispatcher s).seq = 0#2 := rfl
@[simp] theorem leaveDispatcher_fault (s : State) : (leaveDispatcher s).fault = s.fault := rfl
@[simp] theorem leaveDispatcher_hist (s : State) : (leaveDispatcher s).hist = s.hist := rfl
@[simp] theorem leaveDispatcher_ports (s : State) : (leaveDispatcher s).ports = s.ports := rfl
@[simp] theorem leaveDispatcher_params (s : State) : (leaveDispatcher s).params = s.params := rfl
@[simp] theorem leaveDispatcher_env (s : State) : (leaveDispatcher s).env = s.env := rfl

/-! ### applyWrites -/

@[simp] theorem applyWrites_reload (l : List FlagWrite) (s : State) :
    (applyWrites l s).reload = s.reload := rfl
@[simp] theorem applyWrites_cnt (l : List FlagWrite) (s : State) : (applyWrites l s).cnt = s.cnt := rfl
@[simp] theorem applyWrites_tmrEn (l : List FlagWrite) (s : State) :
    (applyWrites l s).tmrEn = s.tmrEn := rfl
@[simp] theorem applyWrites_tickf (l : List FlagWrite) (s : State) :
    (applyWrites l s).tickf = s.tickf := rfl
@[simp] theorem applyWrites_adcEn (l : List FlagWrite) (s : State) :
    (applyWrites l s).adcEn = s.adcEn := rfl
@[simp] theorem applyWrites_adcRef (l : List FlagWrite) (s : State) :
    (applyWrites l s).adcRef = s.adcRef := rfl
@[simp] theorem applyWrites_chan (l : List FlagWrite) (s : State) : (applyWrites l s).chan = s.chan := rfl
@[simp] theorem applyWrites_adcAte (l : List FlagWrite) (s : State) :
    (applyWrites l s).adcAte = s.adcAte := rfl
@[simp] theorem applyWrites_adcIe (l : List FlagWrite) (s : State) :
    (applyWrites l s).adcIe = s.adcIe := rfl
@[simp] theorem applyWrites_pinIn (l : List FlagWrite) (s : State) :
    (applyWrites l s).pinIn = s.pinIn := rfl
@[simp] theorem applyWrites_dinDis (l : List FlagWrite) (s : State) :
    (applyWrites l s).dinDis = s.dinDis := rfl
@[simp] theorem applyWrites_adcBusy (l : List FlagWrite) (s : State) :
    (applyWrites l s).adcBusy = s.adcBusy := rfl
@[simp] theorem applyWrites_adcData (l : List FlagWrite) (s : State) :
    (applyWrites l s).adcData = s.adcData := rfl
@[simp] theorem applyWrites_adcf (l : List FlagWrite) (s : State) : (applyWrites l s).adcf = s.adcf := rfl
@[simp] theorem applyWrites_sample (l : List FlagWrite) (s : State) :
    (applyWrites l s).sample = s.sample := rfl
@[simp] theorem applyWrites_modem (l : List FlagWrite) (s : State) :
    (applyWrites l s).modem = s.modem := rfl
@[simp] theorem applyWrites_inited (l : List FlagWrite) (s : State) :
    (applyWrites l s).inited = s.inited := rfl
@[simp] theorem applyWrites_txen (l : List FlagWrite) (s : State) :
    (applyWrites l s).txen = writesTo .txen s.txen l := rfl
@[simp] theorem applyWrites_key (l : List FlagWrite) (s : State) :
    (applyWrites l s).key = writesTo .key s.key l := rfl
@[simp] theorem applyWrites_out (l : List FlagWrite) (s : State) : (applyWrites l s).out = s.out := rfl
@[simp] theorem applyWrites_outEn (l : List FlagWrite) (s : State) :
    (applyWrites l s).outEn = s.outEn := rfl
@[simp] theorem applyWrites_seq (l : List FlagWrite) (s : State) : (applyWrites l s).seq = s.seq := rfl
@[simp] theorem applyWrites_fault (l : List FlagWrite) (s : State) :
    (applyWrites l s).fault = s.fault := rfl
@[simp] theorem applyWrites_hist (l : List FlagWrite) (s : State) : (applyWrites l s).hist = s.hist := rfl
@[simp] theorem applyWrites_ports (l : List FlagWrite) (s : State) :
    (applyWrites l s).ports = s.ports := rfl
@[simp] theorem applyWrites_params (l : List FlagWrite) (s : State) :
    (applyWrites l s).params = s.params := rfl
@[simp] theorem applyWrites_env (l : List FlagWrite) (s : State) : (applyWrites l s).env = s.env := rfl

/-! ### setClock -/

@[simp] theorem setClock_reload (d : Half) (s : State) : (setClock d s).reload = d := rfl
@[simp] theorem setClock_cnt (d : Half) (s : State) : (setClock d s).cnt = 0#16 := rfl
@[simp] theorem setClock_tmrEn (d : Half) (s : State) : (setClock d s).tmrEn = true := rfl
@[simp] theorem setClock_tickf (d : Half) (s : State) : (setClock d s).tickf = s.tickf := rfl
@[simp] theorem setClock_adcEn (d : Half) (s : State) : (setClock d s).adcEn = s.adcEn := rfl
@[simp] theorem setClock_adcRef (d : Half) (s : State) : (setClock d s).adcRef = s.adcRef := rfl
@[simp] theorem setClock_chan (d : Half) (s : State) : (setClock d s).chan = s.chan := rfl
@[simp] theorem setClock_adcAte (d : Half) (s : State) : (setClock d s).adcAte = s.adcAte := rfl
@[simp] theorem setClock_adcIe (d : Half) (s : State) : (setClock d s).adcIe = s.adcIe := rfl
@[simp] theorem setClock_pinIn (d : Half) (s : State) : (setClock d s).pinIn = s.pinIn := rfl
@[simp] theorem setClock_dinDis (d : Half) (s : State) : (setClock d s).dinDis = s.dinDis := rfl
@[simp] theorem setClock_adcBusy (d : Half) (s : State) : (setClock d s).adcBusy = s.adcBusy := rfl
@[simp] theorem setClock_adcData (d : Half) (s : State) : (setClock d s).adcData = s.adcData := rfl
@[simp] theorem setClock_adcf (d : Half) (s : State) : (setClock d s).adcf = s.adcf := rfl
@[simp] theorem setClock_sample (d : Half) (s : State) : (setClock d s).sample = s.sample := rfl
@[simp] theorem setClock_modem (d : Half) (s : State) : (setClock d s).modem = s.modem := rfl
@[simp] theorem setClock_inited (d : Half) (s : State) : (setClock d s).inited = s.inited := rfl
@[simp] theorem setClock_txen (d : Half) (s : State) : (setClock d s).txen = s.txen := rfl
@[simp] theorem setClock_key (d : Half) (s : State) : (setClock d s).key = s.key := rfl
@[simp] theorem setClock_out (d : Half) (s : State) : (setClock d s).out = s.out := rfl
@[simp] theorem setClock_outEn (d : Half) (s : State) : (setClock d s).outEn = s.outEn := rfl
@[simp] theorem setClock_seq (d : Half) (s : State) : (setClock d s).seq = s.seq := rfl
@[simp] theorem setClock_fault (d : Half) (s : State) : (setClock d s).fault = s.fault := rfl
@[simp] theorem setClock_hist (d : Half) (s : State) :
    (setClock d s).hist = s.hist ++ [encode (.cfgclk d)] := rfl
@[simp] theorem setClock_ports (d : Half) (s : State) : (setClock d s).ports = s.ports := rfl
@[simp] theorem setClock_params (d : Half) (s : State) : (setClock d s).params = s.params := rfl
@[simp] theorem setClock_env (d : Half) (s : State) : (setClock d s).env = s.env := rfl

/-! ### setConverter -/

@[simp] theorem setConverter_reload (ch : Channel) (s : State) :
    (setConverter ch s).reload = s.reload := rfl
@[simp] theorem setConverter_cnt (ch : Channel) (s : State) : (setConverter ch s).cnt = s.cnt := rfl
@[simp] theorem setConverter_tmrEn (ch : Channel) (s : State) : (setConverter ch s).tmrEn = s.tmrEn := rfl
@[simp] theorem setConverter_tickf (ch : Channel) (s : State) : (setConverter ch s).tickf = s.tickf := rfl
@[simp] theorem setConverter_adcEn (ch : Channel) (s : State) : (setConverter ch s).adcEn = true := rfl
@[simp] theorem setConverter_adcRef (ch : Channel) (s : State) : (setConverter ch s).adcRef = true := rfl
@[simp] theorem setConverter_chan (ch : Channel) (s : State) : (setConverter ch s).chan = ch := rfl
@[simp] theorem setConverter_adcAte (ch : Channel) (s : State) : (setConverter ch s).adcAte = true := rfl
@[simp] theorem setConverter_adcIe (ch : Channel) (s : State) : (setConverter ch s).adcIe = true := rfl
@[simp] theorem setConverter_pinIn (ch : Channel) (s : State) :
    (setConverter ch s).pinIn = s.pinIn ||| chanBit ch := rfl
@[simp] theorem setConverter_dinDis (ch : Channel) (s : State) :
    (setConverter ch s).dinDis = s.dinDis ||| chanBit ch := rfl
@[simp] theorem setConverter_adcBusy (ch : Channel) (s : State) :
    (setConverter ch s).adcBusy = s.adcBusy := rfl
@[simp] theorem setConverter_adcData (ch : Channel) (s : State) :
    (setConverter ch s).adcData = s.adcData := rfl
@[simp] theorem setConverter_adcf (ch : Channel) (s : State) : (setConverter ch s).adcf = s.adcf := rfl
@[simp] theorem setConverter_sample (ch : Channel) (s : State) :
    (setConverter ch s).sample = s.sample := rfl
@[simp] theorem setConverter_modem (ch : Channel) (s : State) : (setConverter ch s).modem = s.modem := rfl
@[simp] theorem setConverter_inited (ch : Channel) (s : State) :
    (setConverter ch s).inited = s.inited := rfl
@[simp] theorem setConverter_txen (ch : Channel) (s : State) : (setConverter ch s).txen = s.txen := rfl
@[simp] theorem setConverter_key (ch : Channel) (s : State) : (setConverter ch s).key = s.key := rfl
@[simp] theorem setConverter_out (ch : Channel) (s : State) : (setConverter ch s).out = s.out := rfl
@[simp] theorem setConverter_outEn (ch : Channel) (s : State) : (setConverter ch s).outEn = s.outEn := rfl
@[simp] theorem setConverter_seq (ch : Channel) (s : State) : (setConverter ch s).seq = s.seq := rfl
@[simp] theorem setConverter_fault (ch : Channel) (s : State) : (setConverter ch s).fault = s.fault := rfl
@[simp] theorem setConverter_hist (ch : Channel) (s : State) :
    (setConverter ch s).hist = s.hist ++ [encode (.cfgadc ch)] := rfl
@[simp] theorem setConverter_ports (ch : Channel) (s : State) : (setConverter ch s).ports = s.ports := rfl
@[simp] theorem setConverter_params (ch : Channel) (s : State) :
    (setConverter ch s).params = s.params := rfl
@[simp] theorem setConverter_env (ch : Channel) (s : State) : (setConverter ch s).env = s.env := rfl

/-! ### trigger -/

@[simp] theorem trigger_reload (s : State) :
    (trigger s).reload = s.reload := by unfold trigger; split <;> rfl
@[simp] theorem trigger_cnt (s : State) : (trigger s).cnt = s.cnt := by unfold trigger; split <;> rfl
@[simp] theorem trigger_tmrEn (s : State) : (trigger s).tmrEn = s.tmrEn := by unfold trigger; split <;> rfl
@[simp] theorem trigger_tickf (s : State) : (trigger s).tickf = s.tickf := by unfold trigger; split <;> rfl
@[simp] theorem trigger_adcEn (s : State) : (trigger s).adcEn = s.adcEn := by unfold trigger; split <;> rfl
@[simp] theorem trigger_adcRef (s : State) :
    (trigger s).adcRef = s.adcRef := by unfold trigger; split <;> rfl
@[simp] theorem trigger_chan (s : State) : (trigger s).chan = s.chan := by unfold trigger; split <;> rfl
@[simp] theorem trigger_adcAte (s : State) :
    (trigger s).adcAte = s.adcAte := by unfold trigger; split <;> rfl
@[simp] theorem trigger_adcIe (s : State) : (trigger s).adcIe = s.adcIe := by unfold trigger; split <;> rfl
@[simp] theorem trigger_pinIn (s : State) : (trigger s).pinIn = s.pinIn := by unfold trigger; split <;> rfl
@[simp] theorem trigger_dinDis (s : State) :
    (trigger s).dinDis = s.dinDis := by unfold trigger; split <;> rfl
@[simp] theorem trigger_adcBusy (s : State) :
    (trigger s).adcBusy =
      (s.adcEn && s.adcAte || s.adcBusy) := by unfold trigger; split <;> simp_all [record, recordWord]
@[simp] theorem trigger_adcData (s : State) :
    (trigger s).adcData = s.adcData := by unfold trigger; split <;> rfl
@[simp] theorem trigger_adcf (s : State) : (trigger s).adcf = s.adcf := by unfold trigger; split <;> rfl
@[simp] theorem trigger_sample (s : State) :
    (trigger s).sample = s.sample := by unfold trigger; split <;> rfl
@[simp] theorem trigger_modem (s : State) : (trigger s).modem = s.modem := by unfold trigger; split <;> rfl
@[simp] theorem trigger_inited (s : State) :
    (trigger s).inited = s.inited := by unfold trigger; split <;> rfl
@[simp] theorem trigger_txen (s : State) : (trigger s).txen = s.txen := by unfold trigger; split <;> rfl
@[simp] theorem trigger_key (s : State) : (trigger s).key = s.key := by unfold trigger; split <;> rfl
@[simp] theorem trigger_out (s : State) : (trigger s).out = s.out := by unfold trigger; split <;> rfl
@[simp] theorem trigger_outEn (s : State) : (trigger s).outEn = s.outEn := by unfold trigger; split <;> rfl
@[simp] theorem trigger_seq (s : State) : (trigger s).seq = s.seq := by unfold trigger; split <;> rfl
@[simp] theorem trigger_fault (s : State) : (trigger s).fault = s.fault := by unfold trigger; split <;> rfl
@[simp] theorem trigger_hist (s : State) :
    (trigger s).hist =
      (if s.adcEn && s.adcAte then s.hist ++ [encode .trig] else s.hist) := by unfold trigger; split <;> simp_all [record, recordWord]
@[simp] theorem trigger_ports (s : State) : (trigger s).ports = s.ports := by unfold trigger; split <;> rfl
@[simp] theorem trigger_params (s : State) :
    (trigger s).params = s.params := by unfold trigger; split <;> rfl
@[simp] theorem trigger_env (s : State) : (trigger s).env = s.env := by unfold trigger; split <;> rfl

/-! ### converted -/

@[simp] theorem converted_reload (r : Raw) (s : State) : (converted r s).reload = s.reload := rfl
@[simp] theorem converted_cnt (r : Raw) (s : State) : (converted r s).cnt = s.cnt := rfl
@[simp] theorem converted_tmrEn (r : Raw) (s : State) : (converted r s).tmrEn = s.tmrEn := rfl
@[simp] theorem converted_tickf (r : Raw) (s : State) : (converted r s).tickf = s.tickf := rfl
@[simp] theorem converted_adcEn (r : Raw) (s : State) : (converted r s).adcEn = s.adcEn := rfl
@[simp] theorem converted_adcRef (r : Raw) (s : State) : (converted r s).adcRef = s.adcRef := rfl
@[simp] theorem converted_chan (r : Raw) (s : State) : (converted r s).chan = s.chan := rfl
@[simp] theorem converted_adcAte (r : Raw) (s : State) : (converted r s).adcAte = s.adcAte := rfl
@[simp] theorem converted_adcIe (r : Raw) (s : State) : (converted r s).adcIe = s.adcIe := rfl
@[simp] theorem converted_pinIn (r : Raw) (s : State) : (converted r s).pinIn = s.pinIn := rfl
@[simp] theorem converted_dinDis (r : Raw) (s : State) : (converted r s).dinDis = s.dinDis := rfl
@[simp] theorem converted_adcBusy (r : Raw) (s : State) : (converted r s).adcBusy = false := rfl
@[simp] theorem converted_adcData (r : Raw) (s : State) : (converted r s).adcData = r := rfl
@[simp] theorem converted_adcf (r : Raw) (s : State) : (converted r s).adcf = true := rfl
@[simp] theorem converted_sample (r : Raw) (s : State) : (converted r s).sample = s.sample := rfl
@[simp] theorem converted_modem (r : Raw) (s : State) : (converted r s).modem = s.modem := rfl
@[simp] theorem converted_inited (r : Raw) (s : State) : (converted r s).inited = s.inited := rfl
@[simp] theorem converted_txen (r : Raw) (s : State) : (converted r s).txen = s.txen := rfl
@[simp] theorem converted_key (r : Raw) (s : State) : (converted r s).key = s.key := rfl
@[simp] theorem converted_out (r : Raw) (s : State) : (converted r s).out = s.out := rfl
@[simp] theorem converted_outEn (r : Raw) (s : State) : (converted r s).outEn = s.outEn := rfl
@[simp] theorem converted_seq (r : Raw) (s : State) : (converted r s).seq = s.seq := rfl
@[simp] theorem converted_fault (r : Raw) (s : State) : (converted r s).fault = s.fault := rfl
@[simp] theorem converted_hist (r : Raw) (s : State) :
    (converted r s).hist = s.hist ++ [encode (.conv r)] := rfl
@[simp] theorem converted_ports (r : Raw) (s : State) : (converted r s).ports = s.ports := rfl
@[simp] theorem converted_params (r : Raw) (s : State) : (converted r s).params = s.params := rfl
@[simp] theorem converted_env (r : Raw) (s : State) : (converted r s).env = s.env := rfl

/-! ### readInput -/

@[simp] theorem readInput_reload (s : State) : (readInput s).reload = s.reload := rfl
@[simp] theorem readInput_cnt (s : State) : (readInput s).cnt = s.cnt := rfl
@[simp] theorem readInput_tmrEn (s : State) : (readInput s).tmrEn = s.tmrEn := rfl
@[simp] theorem readInput_tickf (s : State) : (readInput s).tickf = s.tickf := rfl
@[simp] theorem readInput_adcEn (s : State) : (readInput s).adcEn = s.adcEn := rfl
@[simp] theorem readInput_adcRef (s : State) : (readInput s).adcRef = s.adcRef := rfl
@[simp] theorem readInput_chan (s : State) : (readInput s).chan = s.chan := rfl
@[simp] theorem readInput_adcAte (s : State) : (readInput s).adcAte = s.adcAte := rfl
@[simp] theorem readInput_adcIe (s : State) : (readInput s).adcIe = s.adcIe := rfl
@[simp] theorem readInput_pinIn (s : State) : (readInput s).pinIn = s.pinIn := rfl
@[simp] theorem readInput_dinDis (s : State) : (readInput s).dinDis = s.dinDis := rfl
@[simp] theorem readInput_adcBusy (s : State) : (readInput s).adcBusy = s.adcBusy := rfl
@[simp] theorem readInput_adcData (s : State) : (readInput s).adcData = s.adcData := rfl
@[simp] theorem readInput_adcf (s : State) : (readInput s).adcf = s.adcf := rfl
@[simp] theorem readInput_sample (s : State) : (readInput s).sample = s.sample := rfl
@[simp] theorem readInput_modem (s : State) : (readInput s).modem = s.modem := rfl
@[simp] theorem readInput_inited (s : State) : (readInput s).inited = s.inited := rfl
@[simp] theorem readInput_txen (s : State) : (readInput s).txen = s.txen := rfl
@[simp] theorem readInput_key (s : State) : (readInput s).key = s.key := rfl
@[simp] theorem readInput_out (s : State) : (readInput s).out = s.out := rfl
@[simp] theorem readInput_outEn (s : State) : (readInput s).outEn = s.outEn := rfl
@[simp] theorem readInput_seq (s : State) : (readInput s).seq = s.seq := rfl
@[simp] theorem readInput_fault (s : State) : (readInput s).fault = s.fault := rfl
@[simp] theorem readInput_hist (s : State) : (readInput s).hist = s.hist ++ [encode .rdin] := rfl
@[simp] theorem readInput_ports (s : State) :
    (readInput s).ports = { s.ports with rdinResult := s.adcData.setWidth 16 } := rfl
@[simp] theorem readInput_params (s : State) : (readInput s).params = s.params := rfl
@[simp] theorem readInput_env (s : State) : (readInput s).env = s.env := rfl

/-! ### sendSample -/

@[simp] theorem sendSample_reload (hd : Handle) (x : Int) (s : State) :
    (sendSample hd x s).reload = s.reload := rfl
@[simp] theorem sendSample_cnt (hd : Handle) (x : Int) (s : State) : (sendSample hd x s).cnt = s.cnt := rfl
@[simp] theorem sendSample_tmrEn (hd : Handle) (x : Int) (s : State) :
    (sendSample hd x s).tmrEn = s.tmrEn := rfl
@[simp] theorem sendSample_tickf (hd : Handle) (x : Int) (s : State) :
    (sendSample hd x s).tickf = s.tickf := rfl
@[simp] theorem sendSample_adcEn (hd : Handle) (x : Int) (s : State) :
    (sendSample hd x s).adcEn = s.adcEn := rfl
@[simp] theorem sendSample_adcRef (hd : Handle) (x : Int) (s : State) :
    (sendSample hd x s).adcRef = s.adcRef := rfl
@[simp] theorem sendSample_chan (hd : Handle) (x : Int) (s : State) :
    (sendSample hd x s).chan = s.chan := rfl
@[simp] theorem sendSample_adcAte (hd : Handle) (x : Int) (s : State) :
    (sendSample hd x s).adcAte = s.adcAte := rfl
@[simp] theorem sendSample_adcIe (hd : Handle) (x : Int) (s : State) :
    (sendSample hd x s).adcIe = s.adcIe := rfl
@[simp] theorem sendSample_pinIn (hd : Handle) (x : Int) (s : State) :
    (sendSample hd x s).pinIn = s.pinIn := rfl
@[simp] theorem sendSample_dinDis (hd : Handle) (x : Int) (s : State) :
    (sendSample hd x s).dinDis = s.dinDis := rfl
@[simp] theorem sendSample_adcBusy (hd : Handle) (x : Int) (s : State) :
    (sendSample hd x s).adcBusy = s.adcBusy := rfl
@[simp] theorem sendSample_adcData (hd : Handle) (x : Int) (s : State) :
    (sendSample hd x s).adcData = s.adcData := rfl
@[simp] theorem sendSample_adcf (hd : Handle) (x : Int) (s : State) :
    (sendSample hd x s).adcf = s.adcf := rfl
@[simp] theorem sendSample_sample (hd : Handle) (x : Int) (s : State) :
    (sendSample hd x s).sample = s.sample := rfl
@[simp] theorem sendSample_modem (hd : Handle) (x : Int) (s : State) :
    (sendSample hd x s).modem = s.modem := rfl
@[simp] theorem sendSample_inited (hd : Handle) (x : Int) (s : State) :
    (sendSample hd x s).inited = s.inited := rfl
@[simp] theorem sendSample_txen (hd : Handle) (x : Int) (s : State) :
    (sendSample hd x s).txen = s.txen := rfl
@[simp] theorem sendSample_key (hd : Handle) (x : Int) (s : State) : (sendSample hd x s).key = s.key := rfl
@[simp] theorem sendSample_out (hd : Handle) (x : Int) (s : State) : (sendSample hd x s).out = s.out := rfl
@[simp] theorem sendSample_outEn (hd : Handle) (x : Int) (s : State) :
    (sendSample hd x s).outEn = s.outEn := rfl
@[simp] theorem sendSample_seq (hd : Handle) (x : Int) (s : State) : (sendSample hd x s).seq = s.seq := rfl
@[simp] theorem sendSample_fault (hd : Handle) (x : Int) (s : State) :
    (sendSample hd x s).fault = s.fault := rfl
@[simp] theorem sendSample_hist (hd : Handle) (x : Int) (s : State) :
    (sendSample hd x s).hist = s.hist ++ [encode (.newin hd x)] := rfl
@[simp] theorem sendSample_ports (hd : Handle) (x : Int) (s : State) :
    (sendSample hd x s).ports =
      { s.ports with mout := encode (.newin hd x), mrspWrites := s.env.newinAnswer (s.hist ++ [encode (.newin hd x)]) hd x } := rfl
@[simp] theorem sendSample_params (hd : Handle) (x : Int) (s : State) :
    (sendSample hd x s).params = s.params := rfl
@[simp] theorem sendSample_env (hd : Handle) (x : Int) (s : State) :
    (sendSample hd x s).env = s.env.popNewin := rfl

/-! ### askSample -/

@[simp] theorem askSample_reload (hd : Handle) (s : State) : (askSample hd s).reload = s.reload := rfl
@[simp] theorem askSample_cnt (hd : Handle) (s : State) : (askSample hd s).cnt = s.cnt := rfl
@[simp] theorem askSample_tmrEn (hd : Handle) (s : State) : (askSample hd s).tmrEn = s.tmrEn := rfl
@[simp] theorem askSample_tickf (hd : Handle) (s : State) : (askSample hd s).tickf = s.tickf := rfl
@[simp] theorem askSample_adcEn (hd : Handle) (s : State) : (askSample hd s).adcEn = s.adcEn := rfl
@[simp] theorem askSample_adcRef (hd : Handle) (s : State) : (askSample hd s).adcRef = s.adcRef := rfl
@[simp] theorem askSample_chan (hd : Handle) (s : State) : (askSample hd s).chan = s.chan := rfl
@[simp] theorem askSample_adcAte (hd : Handle) (s : State) : (askSample hd s).adcAte = s.adcAte := rfl
@[simp] theorem askSample_adcIe (hd : Handle) (s : State) : (askSample hd s).adcIe = s.adcIe := rfl
@[simp] theorem askSample_pinIn (hd : Handle) (s : State) : (askSample hd s).pinIn = s.pinIn := rfl
@[simp] theorem askSample_dinDis (hd : Handle) (s : State) : (askSample hd s).dinDis = s.dinDis := rfl
@[simp] theorem askSample_adcBusy (hd : Handle) (s : State) : (askSample hd s).adcBusy = s.adcBusy := rfl
@[simp] theorem askSample_adcData (hd : Handle) (s : State) : (askSample hd s).adcData = s.adcData := rfl
@[simp] theorem askSample_adcf (hd : Handle) (s : State) : (askSample hd s).adcf = s.adcf := rfl
@[simp] theorem askSample_sample (hd : Handle) (s : State) : (askSample hd s).sample = s.sample := rfl
@[simp] theorem askSample_modem (hd : Handle) (s : State) : (askSample hd s).modem = s.modem := rfl
@[simp] theorem askSample_inited (hd : Handle) (s : State) : (askSample hd s).inited = s.inited := rfl
@[simp] theorem askSample_txen (hd : Handle) (s : State) : (askSample hd s).txen = s.txen := rfl
@[simp] theorem askSample_key (hd : Handle) (s : State) : (askSample hd s).key = s.key := rfl
@[simp] theorem askSample_out (hd : Handle) (s : State) : (askSample hd s).out = s.out := rfl
@[simp] theorem askSample_outEn (hd : Handle) (s : State) : (askSample hd s).outEn = s.outEn := rfl
@[simp] theorem askSample_seq (hd : Handle) (s : State) : (askSample hd s).seq = s.seq := rfl
@[simp] theorem askSample_fault (hd : Handle) (s : State) : (askSample hd s).fault = s.fault := rfl
@[simp] theorem askSample_hist (hd : Handle) (s : State) :
    (askSample hd s).hist = s.hist ++ [encode (.reqout hd)] := rfl
@[simp] theorem askSample_ports (hd : Handle) (s : State) :
    (askSample hd s).ports =
      { s.ports with mout := encode (.reqout hd), mrspSample := (s.env.reqoutAnswer (s.hist ++ [encode (.reqout hd)]) hd).1, mrspWrites := (s.env.reqoutAnswer (s.hist ++ [encode (.reqout hd)]) hd).2 } := rfl
@[simp] theorem askSample_params (hd : Handle) (s : State) : (askSample hd s).params = s.params := rfl
@[simp] theorem askSample_env (hd : Handle) (s : State) : (askSample hd s).env = s.env.popReqout := rfl

/-! ### writeOutput -/

@[simp] theorem writeOutput_reload (v : Byte) (s : State) : (writeOutput v s).reload = s.reload := rfl
@[simp] theorem writeOutput_cnt (v : Byte) (s : State) : (writeOutput v s).cnt = s.cnt := rfl
@[simp] theorem writeOutput_tmrEn (v : Byte) (s : State) : (writeOutput v s).tmrEn = s.tmrEn := rfl
@[simp] theorem writeOutput_tickf (v : Byte) (s : State) : (writeOutput v s).tickf = s.tickf := rfl
@[simp] theorem writeOutput_adcEn (v : Byte) (s : State) : (writeOutput v s).adcEn = s.adcEn := rfl
@[simp] theorem writeOutput_adcRef (v : Byte) (s : State) : (writeOutput v s).adcRef = s.adcRef := rfl
@[simp] theorem writeOutput_chan (v : Byte) (s : State) : (writeOutput v s).chan = s.chan := rfl
@[simp] theorem writeOutput_adcAte (v : Byte) (s : State) : (writeOutput v s).adcAte = s.adcAte := rfl
@[simp] theorem writeOutput_adcIe (v : Byte) (s : State) : (writeOutput v s).adcIe = s.adcIe := rfl
@[simp] theorem writeOutput_pinIn (v : Byte) (s : State) : (writeOutput v s).pinIn = s.pinIn := rfl
@[simp] theorem writeOutput_dinDis (v : Byte) (s : State) : (writeOutput v s).dinDis = s.dinDis := rfl
@[simp] theorem writeOutput_adcBusy (v : Byte) (s : State) : (writeOutput v s).adcBusy = s.adcBusy := rfl
@[simp] theorem writeOutput_adcData (v : Byte) (s : State) : (writeOutput v s).adcData = s.adcData := rfl
@[simp] theorem writeOutput_adcf (v : Byte) (s : State) : (writeOutput v s).adcf = s.adcf := rfl
@[simp] theorem writeOutput_sample (v : Byte) (s : State) : (writeOutput v s).sample = s.sample := rfl
@[simp] theorem writeOutput_modem (v : Byte) (s : State) : (writeOutput v s).modem = s.modem := rfl
@[simp] theorem writeOutput_inited (v : Byte) (s : State) : (writeOutput v s).inited = s.inited := rfl
@[simp] theorem writeOutput_txen (v : Byte) (s : State) : (writeOutput v s).txen = s.txen := rfl
@[simp] theorem writeOutput_key (v : Byte) (s : State) : (writeOutput v s).key = s.key := rfl
@[simp] theorem writeOutput_out (v : Byte) (s : State) : (writeOutput v s).out = v := rfl
@[simp] theorem writeOutput_outEn (v : Byte) (s : State) : (writeOutput v s).outEn = s.outEn := rfl
@[simp] theorem writeOutput_seq (v : Byte) (s : State) : (writeOutput v s).seq = s.seq := rfl
@[simp] theorem writeOutput_fault (v : Byte) (s : State) : (writeOutput v s).fault = s.fault := rfl
@[simp] theorem writeOutput_hist (v : Byte) (s : State) :
    (writeOutput v s).hist = s.hist ++ [encode (.wrout v)] := rfl
@[simp] theorem writeOutput_ports (v : Byte) (s : State) : (writeOutput v s).ports = s.ports := rfl
@[simp] theorem writeOutput_params (v : Byte) (s : State) : (writeOutput v s).params = s.params := rfl
@[simp] theorem writeOutput_env (v : Byte) (s : State) : (writeOutput v s).env = s.env := rfl

/-! ### respond -/

@[simp] theorem respond_reload (w : Word) (s : State) : (respond w s).reload = s.reload := rfl
@[simp] theorem respond_cnt (w : Word) (s : State) : (respond w s).cnt = s.cnt := rfl
@[simp] theorem respond_tmrEn (w : Word) (s : State) : (respond w s).tmrEn = s.tmrEn := rfl
@[simp] theorem respond_tickf (w : Word) (s : State) : (respond w s).tickf = s.tickf := rfl
@[simp] theorem respond_adcEn (w : Word) (s : State) : (respond w s).adcEn = s.adcEn := rfl
@[simp] theorem respond_adcRef (w : Word) (s : State) : (respond w s).adcRef = s.adcRef := rfl
@[simp] theorem respond_chan (w : Word) (s : State) : (respond w s).chan = s.chan := rfl
@[simp] theorem respond_adcAte (w : Word) (s : State) : (respond w s).adcAte = s.adcAte := rfl
@[simp] theorem respond_adcIe (w : Word) (s : State) : (respond w s).adcIe = s.adcIe := rfl
@[simp] theorem respond_pinIn (w : Word) (s : State) : (respond w s).pinIn = s.pinIn := rfl
@[simp] theorem respond_dinDis (w : Word) (s : State) : (respond w s).dinDis = s.dinDis := rfl
@[simp] theorem respond_adcBusy (w : Word) (s : State) : (respond w s).adcBusy = s.adcBusy := rfl
@[simp] theorem respond_adcData (w : Word) (s : State) : (respond w s).adcData = s.adcData := rfl
@[simp] theorem respond_adcf (w : Word) (s : State) : (respond w s).adcf = s.adcf := rfl
@[simp] theorem respond_sample (w : Word) (s : State) : (respond w s).sample = s.sample := rfl
@[simp] theorem respond_modem (w : Word) (s : State) : (respond w s).modem = s.modem := rfl
@[simp] theorem respond_inited (w : Word) (s : State) : (respond w s).inited = s.inited := rfl
@[simp] theorem respond_txen (w : Word) (s : State) : (respond w s).txen = s.txen := rfl
@[simp] theorem respond_key (w : Word) (s : State) : (respond w s).key = s.key := rfl
@[simp] theorem respond_out (w : Word) (s : State) : (respond w s).out = s.out := rfl
@[simp] theorem respond_outEn (w : Word) (s : State) : (respond w s).outEn = s.outEn := rfl
@[simp] theorem respond_seq (w : Word) (s : State) : (respond w s).seq = s.seq := rfl
@[simp] theorem respond_fault (w : Word) (s : State) : (respond w s).fault = s.fault := rfl
@[simp] theorem respond_hist (w : Word) (s : State) : (respond w s).hist = s.hist := rfl
@[simp] theorem respond_ports (w : Word) (s : State) :
    (respond w s).ports = { s.ports with hrsp := w } := rfl
@[simp] theorem respond_params (w : Word) (s : State) : (respond w s).params = s.params := rfl
@[simp] theorem respond_env (w : Word) (s : State) : (respond w s).env = s.env := rfl

/-! ### The environment's lists -/

@[simp] theorem popTurn_inner (e : Env) : e.popTurn.inner = e.inner := by unfold Env.popTurn; split <;> rfl
@[simp] theorem popTurn_agenda (e : Env) : e.popTurn.agenda = e.agenda.tail := by
  unfold Env.popTurn; split <;> simp_all [Env.countDraw]
@[simp] theorem popTurn_hcmd (e : Env) : e.popTurn.hcmd = e.hcmd := by unfold Env.popTurn; split <;> rfl
@[simp] theorem popTurn_ain (e : Env) : e.popTurn.ain = e.ain := by unfold Env.popTurn; split <;> rfl
@[simp] theorem popTurn_newins (e : Env) : e.popTurn.newins = e.newins := by unfold Env.popTurn; split <;> rfl
@[simp] theorem popTurn_reqouts (e : Env) : e.popTurn.reqouts = e.reqouts := by unfold Env.popTurn; split <;> rfl

@[simp] theorem popHostWord_inner (e : Env) : e.popHostWord.inner = e.inner := by unfold Env.popHostWord; split <;> rfl
@[simp] theorem popHostWord_agenda (e : Env) : e.popHostWord.agenda = e.agenda := by unfold Env.popHostWord; split <;> rfl
@[simp] theorem popHostWord_hcmd (e : Env) : e.popHostWord.hcmd = e.hcmd.tail := by
  unfold Env.popHostWord; split <;> simp_all [Env.countDraw]
@[simp] theorem popHostWord_ain (e : Env) : e.popHostWord.ain = e.ain := by unfold Env.popHostWord; split <;> rfl
@[simp] theorem popHostWord_newins (e : Env) : e.popHostWord.newins = e.newins := by unfold Env.popHostWord; split <;> rfl
@[simp] theorem popHostWord_reqouts (e : Env) : e.popHostWord.reqouts = e.reqouts := by unfold Env.popHostWord; split <;> rfl

@[simp] theorem popRaw_inner (e : Env) : e.popRaw.inner = e.inner := by unfold Env.popRaw; split <;> rfl
@[simp] theorem popRaw_agenda (e : Env) : e.popRaw.agenda = e.agenda := by unfold Env.popRaw; split <;> rfl
@[simp] theorem popRaw_hcmd (e : Env) : e.popRaw.hcmd = e.hcmd := by unfold Env.popRaw; split <;> rfl
@[simp] theorem popRaw_ain (e : Env) : e.popRaw.ain = e.ain.tail := by
  unfold Env.popRaw; split <;> simp_all [Env.countDraw]
@[simp] theorem popRaw_newins (e : Env) : e.popRaw.newins = e.newins := by unfold Env.popRaw; split <;> rfl
@[simp] theorem popRaw_reqouts (e : Env) : e.popRaw.reqouts = e.reqouts := by unfold Env.popRaw; split <;> rfl

@[simp] theorem popNewin_inner (e : Env) : e.popNewin.inner = e.inner := by unfold Env.popNewin; split <;> rfl
@[simp] theorem popNewin_agenda (e : Env) : e.popNewin.agenda = e.agenda := by unfold Env.popNewin; split <;> rfl
@[simp] theorem popNewin_hcmd (e : Env) : e.popNewin.hcmd = e.hcmd := by unfold Env.popNewin; split <;> rfl
@[simp] theorem popNewin_ain (e : Env) : e.popNewin.ain = e.ain := by unfold Env.popNewin; split <;> rfl
@[simp] theorem popNewin_newins (e : Env) : e.popNewin.newins = e.newins.tail := by
  unfold Env.popNewin; split <;> simp_all [Env.countDraw]
@[simp] theorem popNewin_reqouts (e : Env) : e.popNewin.reqouts = e.reqouts := by unfold Env.popNewin; split <;> rfl

@[simp] theorem popReqout_inner (e : Env) : e.popReqout.inner = e.inner := by unfold Env.popReqout; split <;> rfl
@[simp] theorem popReqout_agenda (e : Env) : e.popReqout.agenda = e.agenda := by unfold Env.popReqout; split <;> rfl
@[simp] theorem popReqout_hcmd (e : Env) : e.popReqout.hcmd = e.hcmd := by unfold Env.popReqout; split <;> rfl
@[simp] theorem popReqout_ain (e : Env) : e.popReqout.ain = e.ain := by unfold Env.popReqout; split <;> rfl
@[simp] theorem popReqout_newins (e : Env) : e.popReqout.newins = e.newins := by unfold Env.popReqout; split <;> rfl
@[simp] theorem popReqout_reqouts (e : Env) : e.popReqout.reqouts = e.reqouts.tail := by
  unfold Env.popReqout; split <;> simp_all [Env.countDraw]

end Sys2Proof.Machine
end

