-- ==== Sys2Proof/Laws/Ops.lean ====
section
/-! SUPPORT. For each shared operation one lemma that says everything it can do; proofs cite these and do
not unfold the operation. -/

namespace Sys2Proof.Machine

/-! ### Guards -/

theorem guarded_eq_next {g : Bool} {f : State → State} {s t : State} :
    guarded g f s = .next t ↔ t = if g then f s else s := by
  unfold guarded
  constructor
  · intro h; injection h with h; exact h.symm
  · rintro rfl; rfl

theorem guarded_of_true {g : Bool} (f : State → State) (s : State) (h : g = true) :
    guarded g f s = .next (f s) := by
  rw [guarded_eq_next, if_pos h]

theorem guarded_of_false {g : Bool} (f : State → State) (s : State) (h : g = false) :
    guarded g f s = .next s := by
  rw [guarded_eq_next, h]; rfl

@[simp] theorem hrdy_iff (s : State) : hrdy s = true ↔ s.seq = 0#2 := by simp [hrdy]

@[simp] theorem dispReady_iff (s : State) :
    dispReady s = true ↔ (s.adcf = true ∧ s.adcIe = true) ∧ s.seq = 0#2 := by simp [dispReady]

@[simp] theorem isTick_iff (s : State) : isTick s = true ↔ s.tmrEn = true ∧ s.cnt = s.reload := by
  simp [isTick]

@[simp] theorem serviceOpen_iff (s : State) :
    serviceOpen s = true ↔ ((s.tickf = true ∨ s.adcBusy = true) ∨ s.adcf = true) ∨ ¬ s.seq = 0#2 := by
  simp [serviceOpen]

/-! ### Flag writes (R67) -/

theorem writesTo_eq_foldl (f : Flag) (b : Bool) (l : List FlagWrite) :
    writesTo f b l = l.foldl (fun b fw => if fw.flag = f then fw.value else b) b := by
  induction l generalizing b with
  | nil => rfl
  | cons fw rest ih => rw [writesTo, ih, List.foldl_cons]

theorem writesTo_append (f : Flag) (b : Bool) (l₁ l₂ : List FlagWrite) :
    writesTo f b (l₁ ++ l₂) = writesTo f (writesTo f b l₁) l₂ := by
  simp only [writesTo_eq_foldl, List.foldl_append]

theorem writesTo_of_no_write {f : Flag} {b : Bool} {l : List FlagWrite} (h : ∀ g ∈ l, g.flag ≠ f) :
    writesTo f b l = b := by
  induction l generalizing b with
  | nil => rfl
  | cons fw rest ih =>
    rw [writesTo, if_neg (h fw (by simp)), ih fun g hg => h g (by simp [hg])]

/-- A flag that a list changes was written by some entry of the list. -/
theorem mem_of_writesTo_ne {f : Flag} {b : Bool} {l : List FlagWrite} (h : writesTo f b l ≠ b) :
    ⟨f, writesTo f b l⟩ ∈ l := by
  induction l generalizing b with
  | nil => exact absurd rfl h
  | cons fw rest ih =>
    rw [writesTo] at h ⊢
    by_cases hr : writesTo f (if fw.flag = f then fw.value else b) rest = (if fw.flag = f then fw.value else b)
    · rw [hr] at h ⊢
      by_cases hf : fw.flag = f
      · rw [if_pos hf]
        subst hf
        simp
      · exact absurd (if_neg hf) h
    · exact List.mem_cons_of_mem _ (ih hr)

/-- The flag writes of a list are applied one after another. -/
theorem applyWrites_cons (fw : FlagWrite) (l : List FlagWrite) (s : State) :
    applyWrites (fw :: l) s = applyWrites l (applyWrites [fw] s) := rfl

@[simp] theorem applyWrites_nil (s : State) : applyWrites [] s = s := rfl

/-! ### Computations (R13) -/

/-- The transform on a 10-bit result as RDIN returns it (R128). -/
theorem recenter_read (r : Raw) : recenter (r.setWidth 16) = ((r.toNat / 4 : Nat) : Int) - 128 := by
  have h := r.isLt
  simp only [recenter, Config.shift, Config.midscale, BitVec.toNat_ushiftRight, BitVec.toNat_setWidth,
    Nat.shiftRight_eq_div_pow]
  congr 2
  omega

/-- `tc_16` loses nothing of a sample that fits (R11). -/
theorem toInt_tc16 {x : Int} (h : sampleFits x = true) : (tc16 x).toInt = x := by
  simp only [sampleFits, Bool.and_eq_true, decide_eq_true_eq] at h
  rw [tc16, BitVec.toInt_ofInt, Int.bmod_def]
  split <;> omega

/-- The mask-and-key law (R145). -/
theorem toNat_modulatingByte (v : Byte) : (modulatingByte v).toNat = 16 * (v.toNat / 16) + 8 := by
  revert v; decide

/-- The divisor check as a range (R8, R187). -/
theorem reloadFits_iff (p : Params) :
    reloadFits p = true ↔ 0 ≤ reloadConst p ∧ reloadConst p ≤ 65535 := by
  rw [reloadFits, Bool.and_eq_true, decide_eq_true_iff, decide_eq_true_iff]
  rfl

/-- A divisor that fits is the operand CFGCLK gets (R188). -/
theorem toNat_reloadWord {p : Params} (h : reloadFits p = true) :
    ((reloadWord p).toNat : Int) = reloadConst p := by
  rw [reloadFits_iff] at h
  rw [reloadWord, BitVec.toNat_ofInt]
  omega

/-! ### The meanings in closed form -/

/-- Recording appends one word to the history and does nothing else (R70). -/
theorem record_eq (i : Instr) (s : State) : record i s = { s with hist := s.hist ++ [encode i] } := rfl

/-- TRIG in closed form (R123). -/
theorem trigger_eq (s : State) :
    trigger s =
      { s with adcBusy := s.adcEn && s.adcAte || s.adcBusy
               hist := if s.adcEn && s.adcAte then s.hist ++ [encode .trig] else s.hist } := by
  unfold trigger
  by_cases h : (s.adcEn && s.adcAte) = true
  · rw [if_pos h, if_pos h, h]; rfl
  · rw [if_neg h, if_neg h, Bool.eq_false_iff.mpr h]; rfl

/-- CLK, when it answers a next state: the counter is stopped, counts, or ticks (R104). -/
theorem execClk_next {s t : State} (h : execClk s = .next t) :
    (s.tmrEn = false ∧ t = record .clk s) ∨
    (s.tmrEn = true ∧ s.cnt ≠ s.reload ∧ t = { record .clk s with cnt := s.cnt + 1#16 }) ∨
    (s.tmrEn = true ∧ s.cnt = s.reload ∧ serviceOpen s = false ∧
      t = trigger { record .clk s with cnt := 0#16, tickf := true }) := by
  unfold execClk at h
  dsimp only at h
  split at h
  · rename_i h1
    injection h with h; exact .inl ⟨h1, h.symm⟩
  · rename_i h1
    have h1 : s.tmrEn = true := by simpa using h1
    split at h
    · rename_i h2
      injection h with h; exact .inr (.inl ⟨h1, h2, h.symm⟩)
    · rename_i h2
      have h2 : s.cnt = s.reload := by simpa using h2
      split at h
      · cases h
      · rename_i h3
        injection h with h
        exact .inr (.inr ⟨h1, h2, by simpa [serviceOpen] using h3, h.symm⟩)

/-- CAPT in closed form (R126): `fw` is the modem's answer. -/
theorem captured_eq (s : State) :
    captured s =
      let x := recenter (s.adcData.setWidth 16)
      let h := s.hist ++ [encode .capt, encode .rdin, encode (.newin s.modem x)]
      let fw := s.env.newinAnswer h s.modem x
      { s with
        sample := tc16 x, txen := writesTo .txen s.txen fw, key := writesTo .key s.key fw, seq := 3#2,
        hist := h,
        ports := { s.ports with
          rdinResult := s.adcData.setWidth 16, mout := encode (.newin s.modem x), mrspWrites := fw },
        env := s.env.popNewin } := by
  simp [captured, readInput, sendSample, applyWrites, record, recordWord, List.append_assoc]

/-- PLAY with `TXEN` = 0 in closed form (R142). -/
theorem played_idle (s : State) (h : s.txen = false) :
    played s =
      { s with out := idleByte s.key, seq := 0#2,
               hist := s.hist ++ [encode .play, encode (.wrout (idleByte s.key))] } := by
  simp [played, leaveDispatcher, writeOutput, record, recordWord, h, List.append_assoc]

/-- PLAY with `TXEN` = 1 in closed form (R142): `a` is the modem's answer. -/
theorem played_modulating (s : State) (h : s.txen = true) :
    played s =
      let hq := s.hist ++ [encode .play, encode (.reqout s.modem)]
      let a := s.env.reqoutAnswer hq s.modem
      { s with
        out := modulatingByte a.1, seq := 0#2,
        txen := writesTo .txen s.txen a.2, key := writesTo .key s.key a.2,
        hist := hq ++ [encode (.wrout (modulatingByte a.1))],
        ports := { s.ports with mout := encode (.reqout s.modem), mrspSample := a.1, mrspWrites := a.2 },
        env := s.env.popReqout } := by
  simp [played, playModulating, leaveDispatcher, writeOutput, askSample, applyWrites, record, recordWord, h,
    List.append_assoc]

/-- INIT when a check fails (R187). -/
theorem initialized_of_some {ch : Channel} {hd : Handle} {s : State} {c : Cause}
    (h : initCause ch hd s = some c) :
    initialized ch hd s = raiseFault c (record (.init ch hd) s) := by
  have e : initCause ch hd (record (.init ch hd) s) = some c := h
  simp only [initialized, e]

/-- INIT when every check passes (R188). -/
theorem initialized_of_none {ch : Channel} {hd : Handle} {s : State} (h : initCause ch hd s = none) :
    initialized ch hd s =
      { s with
        reload := reloadWord s.params, cnt := 0#16, tmrEn := true, adcRef := true, chan := ch,
        pinIn := s.pinIn ||| chanBit ch, dinDis := s.dinDis ||| chanBit ch, adcAte := true, adcIe := true,
        adcEn := true, outEn := true, modem := hd, inited := true,
        hist := s.hist ++ [encode (.init ch hd), encode (.cfgclk (reloadWord s.params)),
          encode (.cfgadc ch)] } := by
  have e : initCause ch hd (record (.init ch hd) s) = none := h
  simp only [initialized, e]
  simp [initEffects, setConverter, setClock, record, recordWord, List.append_assoc]

/-- INIT's checks all pass exactly under the conditions of R187. -/
theorem initCause_eq_none {ch : Channel} {hd : Handle} {s : State} :
    initCause ch hd s = none ↔
      hd ≠ 0#8 ∧ ch.toNat < s.params.nChan ∧ reloadFits s.params = true ∧
        (s.inited = true → ch = s.chan ∧ hd = s.modem) := by
  unfold initCause
  split
  · simp_all
  · split
    · rename_i h2
      simp [Nat.not_lt.mpr h2]
    · rename_i h1 h2
      split
      · simp_all
      · rename_i h3
        have h3 : reloadFits s.params = true := by simpa using h3
        rw [Nat.not_le] at h2
        constructor
        · intro h
          refine ⟨h1, h2, h3, fun h4 => ?_⟩
          by_cases h5 : ch = s.chan <;> by_cases h6 : hd = s.modem <;> simp_all
        · rintro ⟨-, -, -, h⟩
          by_cases h4 : s.inited = true
          · simp [h4, (h h4).1, (h h4).2]
          · simp [h4]

/-! ### The step -/

/-- A step with nothing placed from outside is the turn of the agent the schedule chooses. -/
theorem step_of_turn {s : State} (h : s.env.inner = none) :
    step s = stepTurn s.env.turn { s with env := s.env.popTurn } := by
  unfold step; rw [h]

/-- A step with a word placed from outside runs that word. -/
theorem step_of_inner {s : State} {w : Word} (h : s.env.inner = some w) :
    step s = stepInner w { s with env := { s.env with inner := none } } := by
  unfold step; rw [h]

end Sys2Proof.Machine
end

