-- ==== Sys2Proof/Laws/Exec.lean ====
section
/-! SUPPORT. What an operation can do and what a step can do, said once: every frame and every invariant is
proved from these two inversions. -/

namespace Sys2Proof.Machine

/-- The effects of an operation that runs: the guard holds, and the next state is the operation's own. -/
inductive Ran : Instr → State → State → Prop where
  | initFaults {ch hd s c} (hs : s.seq = 0#2) (hc : initCause ch hd s = some c) :
      Ran (.init ch hd) s (raiseFault c (record (.init ch hd) s))
  | initPasses {ch hd s} (hs : s.seq = 0#2) (hc : initCause ch hd s = none) :
      Ran (.init ch hd) s (initialized ch hd s)
  | stxe {b s} (hs : s.seq = 0#2) : Ran (.stxe b) s { record (.stxe b) s with txen := b }
  | skey {b s} (hs : s.seq = 0#2) : Ran (.skey b) s { record (.skey b) s with key := b }
  | ltxe {s} (hs : s.seq = 0#2) : Ran .ltxe s (respond (flagResponse s.txen) (record .ltxe s))
  | lkey {s} (hs : s.seq = 0#2) : Ran .lkey s (respond (flagResponse s.key) (record .lkey s))
  | cfgclk {d s} : Ran (.cfgclk d) s (setClock d s)
  | cfgadc {ch s} : Ran (.cfgadc ch) s (setConverter ch s)
  | wrout {v s} : Ran (.wrout v) s (writeOutput v s)
  | rdin {s} : Ran .rdin s (readInput s)
  | ack {s} (hs : s.seq = 1#2) : Ran .ack s { record .ack s with tickf := false, seq := 2#2 }
  | capt {s} (hs : s.seq = 2#2) : Ran .capt s (captured s)
  | play {s} (hs : s.seq = 3#2) : Ran .play s (played s)
  | newin {hd x s} : Ran (.newin hd x) s (sendSample hd x s)
  | reqout {hd s} : Ran (.reqout hd) s (askSample hd s)
  | clkStopped {s} (h : s.tmrEn = false) : Ran .clk s (record .clk s)
  | clkCounts {s} (h : s.tmrEn = true) (hn : s.cnt ≠ s.reload) :
      Ran .clk s { record .clk s with cnt := s.cnt + 1#16 }
  | clkTicks {s} (h : s.tmrEn = true) (he : s.cnt = s.reload) (ho : serviceOpen s = false) :
      Ran .clk s (trigger { record .clk s with cnt := 0#16, tickf := true })
  | trig {s} : Ran .trig s (trigger s)
  | conv {r s} (hb : s.adcBusy = true) : Ran (.conv r) s (converted r s)
  | disp {s} (hf : s.adcf = true) (hi : s.adcIe = true) (hs : s.seq = 0#2) :
      Ran .disp s (enterDispatcher (record .disp s))

/-- An operation that answers a next state was held, or ran. -/
theorem exec_next {i : Instr} {s t : State} (h : exec i s = .next t) : t = s ∨ Ran i s t := by
  cases i with
  | init ch hd =>
    rw [exec, execInit, guarded_eq_next] at h
    split at h
    · rename_i hs
      rw [hrdy_iff] at hs
      cases hc : initCause ch hd s with
      | some c => rw [initialized_of_some hc] at h; exact .inr (h ▸ .initFaults hs hc)
      | none => exact .inr (h ▸ .initPasses hs hc)
    · exact .inl h
  | clk =>
    rcases execClk_next h with ⟨h1, rfl⟩ | ⟨h1, h2, rfl⟩ | ⟨h1, h2, h3, rfl⟩
    · exact .inr (.clkStopped h1)
    · exact .inr (.clkCounts h1 h2)
    · exact .inr (.clkTicks h1 h2 h3)
  | cfgclk d => injection h with h; exact .inr (h ▸ .cfgclk)
  | cfgadc ch => injection h with h; exact .inr (h ▸ .cfgadc)
  | wrout v => injection h with h; exact .inr (h ▸ .wrout)
  | rdin => injection h with h; exact .inr (h ▸ .rdin)
  | newin hd x => injection h with h; exact .inr (h ▸ .newin)
  | reqout hd => injection h with h; exact .inr (h ▸ .reqout)
  | trig => injection h with h; exact .inr (h ▸ .trig)
  | stxe b =>
    rw [exec, execStxe, guarded_eq_next] at h
    split at h
    · exact .inr (h ▸ .stxe ((hrdy_iff s).mp ‹_›))
    · exact .inl h
  | skey b =>
    rw [exec, execSkey, guarded_eq_next] at h
    split at h
    · exact .inr (h ▸ .skey ((hrdy_iff s).mp ‹_›))
    · exact .inl h
  | ltxe =>
    rw [exec, execLtxe, guarded_eq_next] at h
    split at h
    · exact .inr (h ▸ .ltxe ((hrdy_iff s).mp ‹_›))
    · exact .inl h
  | lkey =>
    rw [exec, execLkey, guarded_eq_next] at h
    split at h
    · exact .inr (h ▸ .lkey ((hrdy_iff s).mp ‹_›))
    · exact .inl h
  | ack =>
    rw [exec, execAck, guarded_eq_next] at h
    split at h
    · exact .inr (h ▸ .ack (by simpa using ‹(s.seq == 1#2) = true›))
    · exact .inl h
  | capt =>
    rw [exec, execCapt, guarded_eq_next] at h
    split at h
    · exact .inr (h ▸ .capt (by simpa using ‹(s.seq == 2#2) = true›))
    · exact .inl h
  | play =>
    rw [exec, execPlay, guarded_eq_next] at h
    split at h
    · exact .inr (h ▸ .play (by simpa using ‹(s.seq == 3#2) = true›))
    · exact .inl h
  | conv r =>
    rw [exec, execConv, guarded_eq_next] at h
    split at h
    · exact .inr (h ▸ .conv ‹_›)
    · exact .inl h
  | disp =>
    rw [exec, execDisp, guarded_eq_next] at h
    split at h
    · have hd := (dispReady_iff s).mp ‹_›
      exact .inr (h ▸ .disp hd.1.1 hd.1.2 hd.2)
    · exact .inl h

/-- The environment after a turn holds the same placed word as before it. -/
@[simp] theorem offerEnv_inner (t : Turn) (s : State) : (offerEnv t s).inner = s.env.inner := by
  cases t <;> simp only [offerEnv] <;> split <;> simp

/-- The host port lets only class-H operations through (R92). -/
theorem cls_of_decodeHost {w : Word} {i : Instr} (h : decodeHost w = some i) : i.op.cls = .host := by
  unfold decodeHost at h
  split at h
  · split at h
    · injection h with h; exact h ▸ ‹_›
    · cases h
  · cases h

/-- The fetch from the micro-ROM (R90, R172). -/
theorem romFetch_cases (q : BitVec 2) :
    (q = 0#2 ∧ romFetch q = none) ∨ (q = 1#2 ∧ romFetch q = some 0x20000000#32) ∨
    (q = 2#2 ∧ romFetch q = some 0x21000000#32) ∨ (q = 3#2 ∧ romFetch q = some 0x22000000#32) := by
  revert q; decide

/-- The three words of the micro-ROM decode to ACK, CAPT and PLAY. -/
theorem decode_microRom :
    decode 0x20000000#32 = .ok .ack ∧ decode 0x21000000#32 = .ok .capt ∧ decode 0x22000000#32 = .ok .play := by
  decide

/-- What the DISPATCHER's turn brings, by `SEQ` (R171, R172). -/
theorem dispatcherOffer_eq (s : State) :
    dispatcherOffer s =
      if s.seq = 0#2 then (if s.adcf = true ∧ s.adcIe = true then .op .disp else .held)
      else if s.seq = 1#2 then .op .ack else if s.seq = 2#2 then .op .capt else .op .play := by
  obtain ⟨d1, d2, d3⟩ := decode_microRom
  rcases romFetch_cases s.seq with ⟨h, hr⟩ | ⟨h, hr⟩ | ⟨h, hr⟩ | ⟨h, hr⟩ <;>
    (rw [h] at hr; simp only [dispatcherOffer, h, hr, d1, d2, d3, dispReady_iff]; simp)

/-- The operations a turn can bring: never a HAL primitive, a modem transaction or TRIG on its own. -/
theorem offer_op {t : Turn} {s : State} {i : Instr} (h : offer t s = .op i) :
    (t = .timer ∧ i = .clk) ∨ (t = .converter ∧ s.adcBusy = true ∧ i = .conv s.env.raw) ∨
    (t = .dispatcher ∧ s.seq = 0#2 ∧ s.adcf = true ∧ s.adcIe = true ∧ i = .disp) ∨
    (t = .dispatcher ∧ s.seq = 1#2 ∧ i = .ack) ∨ (t = .dispatcher ∧ s.seq = 2#2 ∧ i = .capt) ∨
    (t = .dispatcher ∧ s.seq = 3#2 ∧ i = .play) ∨
    (t = .foreground ∧ s.seq = 0#2 ∧ i.op.cls = .host) := by
  cases t with
  | timer => injection h with h; subst h; simp
  | converter =>
    simp only [offer] at h
    split at h
    · injection h with h; subst h; simp [*]
    · cases h
  | dispatcher =>
    rw [offer, dispatcherOffer_eq] at h
    rcases romFetch_cases s.seq with ⟨hs, -⟩ | ⟨hs, -⟩ | ⟨hs, -⟩ | ⟨hs, -⟩ <;> simp [hs] at h ⊢
    · split at h
      · injection h with h; subst h; simp [*]
      · cases h
    all_goals exact h.symm
  | foreground =>
    simp only [offer, foregroundOffer] at h
    split at h
    · split at h
      · injection h with h
        subst h
        simp [cls_of_decodeHost ‹_›, (hrdy_iff s).mp ‹_›]
      · cases h
    · cases h
  | resetLine => cases h

/-- What the machine does in a turn that is not RESET: it is held, it carries out an operation, or the host
port, with `SEQ` = 0, records an illegal word. `u` differs from `s` in the environment only. -/
theorem step_next {s t : State} (hi : s.env.inner = none) (h : step s = .next t) :
    ∃ e : Env, e.inner = none ∧
      let u := { s with env := e }
      t = u ∨
      (∃ i, offer s.env.turn { s with env := s.env.popTurn } = .op i ∧ exec i u = .next t) ∨
      (s.seq = 0#2 ∧ s.env.turn = .foreground ∧ ∃ w, decodeHost w = none ∧ t = illegalCommand w u) ∨
      (s.env.turn = .resetLine ∧ t = resetLine u) := by
  rw [step_of_turn hi, stepTurn] at h
  refine ⟨offerEnv s.env.turn { s with env := s.env.popTurn }, by simp [hi], ?_⟩
  generalize ho : offer s.env.turn { s with env := s.env.popTurn } = o at h
  cases o with
  | held => injection h with h; exact .inl h.symm
  | op i => exact .inr (.inl ⟨i, rfl, h⟩)
  | illegal w =>
    injection h with h
    refine .inr (.inr (.inl ?_))
    cases ht : s.env.turn <;> rw [ht] at ho <;> simp only [offer, dispatcherOffer, foregroundOffer] at ho
    · cases ho
    · split at ho <;> cases ho
    · split at ho
      · split at ho <;> cases ho
      · split at ho <;> cases ho
    · split at ho
      · rename_i hr
        split at ho
        · cases ho
        · rename_i hd
          injection ho with ho
          subst ho
          exact ⟨(hrdy_iff _).mp hr, rfl, _, hd, by rw [← h, ht]⟩
      · cases ho
    · cases ho
  | reset =>
    injection h with h
    refine .inr (.inr (.inr ⟨?_, h.symm⟩))
    cases ht : s.env.turn <;> rw [ht] at ho <;> simp only [offer, dispatcherOffer, foregroundOffer] at ho
    · cases ho
    · split at ho <;> cases ho
    · split at ho
      · split at ho <;> cases ho
      · split at ho <;> cases ho
    · split at ho
      · split at ho <;> cases ho
      · cases ho

end Sys2Proof.Machine
end

