-- ==== Sys2Proof/Laws/PerInstr.lean ====
section
/-! SUPPORT. Statements made per instruction. Spelling: the word an instruction encodes to matches the
opcode-table row of its own mnemonic, so every must-be-zero bit of it is zero (R84, R85). -/

namespace Sys2Proof.Laws.Spelling

/-- The word of `i` matches the row of `i`'s mnemonic. -/
def Statement (i : Instr) : Prop :=
  ∃ r ∈ opcodeTable, r.op = i.op ∧ encode i &&& r.mask = r.pattern

/-- A word whose `h` and `arg` fields are zero under its row's mask matches the row. -/
theorem of_fields (o : Op) (op mh : Byte) (ma : Half) {i : Instr} {h : Handle} {arg : Half}
    (hr : ⟨o, mkWord op 0#8 0#16, mkWord 0xFF#8 mh ma⟩ ∈ opcodeTable)
    (hi : i.op = o) (he : encode i = mkWord op h arg)
    (hh : h &&& mh = 0#8) (ha : arg &&& ma = 0#16) : Statement i := by
  refine ⟨_, hr, hi.symm, ?_⟩
  have e : op &&& 0xFF#8 = op := BitVec.and_allOnes
  show encode i &&& mkWord 0xFF#8 mh ma = mkWord op 0#8 0#16
  rw [he, mkWord_and, e, hh, ha]

theorem init (ch : Channel) (hd : Handle) : Statement (.init ch hd) :=
  of_fields .init 0x01#8 0x00#8 0xFFF0#16 (by decide) rfl rfl BitVec.and_zero (channel_high_zero ch)

theorem stxe (b : Bool) : Statement (.stxe b) :=
  of_fields .stxe 0x02#8 0xFF#8 0xFFFE#16 (by decide) rfl rfl (by decide) (flag_high_zero b)

theorem skey (b : Bool) : Statement (.skey b) :=
  of_fields .skey 0x03#8 0xFF#8 0xFFFE#16 (by decide) rfl rfl (by decide) (flag_high_zero b)

theorem ltxe : Statement .ltxe :=
  of_fields .ltxe 0x04#8 0xFF#8 0xFFFF#16 (by decide) rfl rfl (by decide) (by decide)

theorem lkey : Statement .lkey :=
  of_fields .lkey 0x05#8 0xFF#8 0xFFFF#16 (by decide) rfl rfl (by decide) (by decide)

theorem cfgclk (d : Half) : Statement (.cfgclk d) :=
  of_fields .cfgclk 0x10#8 0xFF#8 0x0000#16 (by decide) rfl rfl (by decide) BitVec.and_zero

theorem cfgadc (ch : Channel) : Statement (.cfgadc ch) :=
  of_fields .cfgadc 0x11#8 0xFF#8 0xFFF0#16 (by decide) rfl rfl (by decide) (channel_high_zero ch)

theorem wrout (v : Byte) : Statement (.wrout v) :=
  of_fields .wrout 0x12#8 0xFF#8 0xFF00#16 (by decide) rfl rfl (by decide) (byte_high_zero v)

theorem rdin : Statement .rdin :=
  of_fields .rdin 0x13#8 0xFF#8 0xFFFF#16 (by decide) rfl rfl (by decide) (by decide)

theorem ack : Statement .ack :=
  of_fields .ack 0x20#8 0xFF#8 0xFFFF#16 (by decide) rfl rfl (by decide) (by decide)

theorem capt : Statement .capt :=
  of_fields .capt 0x21#8 0xFF#8 0xFFFF#16 (by decide) rfl rfl (by decide) (by decide)

theorem play : Statement .play :=
  of_fields .play 0x22#8 0xFF#8 0xFFFF#16 (by decide) rfl rfl (by decide) (by decide)

theorem newin (hd : Handle) (s : Int) : Statement (.newin hd s) :=
  of_fields .newin 0x30#8 0x00#8 0x0000#16 (by decide) rfl rfl BitVec.and_zero BitVec.and_zero

theorem reqout (hd : Handle) : Statement (.reqout hd) :=
  of_fields .reqout 0x31#8 0x00#8 0xFFFF#16 (by decide) rfl rfl BitVec.and_zero (by decide)

theorem clk : Statement .clk :=
  of_fields .clk 0x40#8 0xFF#8 0xFFFF#16 (by decide) rfl rfl (by decide) (by decide)

theorem trig : Statement .trig :=
  of_fields .trig 0x41#8 0xFF#8 0xFFFF#16 (by decide) rfl rfl (by decide) (by decide)

theorem conv (raw : Raw) : Statement (.conv raw) :=
  of_fields .conv 0x42#8 0xFF#8 0xFC00#16 (by decide) rfl rfl (by decide) (raw_high_zero raw)

theorem disp : Statement .disp :=
  of_fields .disp 0x43#8 0xFF#8 0xFFFF#16 (by decide) rfl rfl (by decide) (by decide)

end Sys2Proof.Laws.Spelling
end

