-- ==== Sys2Proof/Laws/Schedule.lean ====
section
/-! SUPPORT. Runs and fairness: what one scheduled step can do, that a turn of any agent but the TIMER always
completes, and the one induction behind every claim that something eventually happens. -/

namespace Sys2Proof.Machine

/-- Only CLK can stop. -/
theorem exec_completes (i : Instr) (s : State) (h : i ≠ .clk) : ∃ t, exec i s = .next t := by
  cases i <;> first | exact ⟨_, rfl⟩ | exact absurd rfl h

/-- A turn of any agent but the TIMER has a next state, whatever the state. -/
theorem turn_completes {s : State} (hi : s.env.inner = none) (ht : s.env.turn ≠ .timer) :
    ∃ s', step s = .next s' := by
  rw [step_of_turn hi, stepTurn]
  generalize ho : offer s.env.turn { s with env := s.env.popTurn } = o
  cases o with
  | held => exact ⟨_, rfl⟩
  | op i =>
    refine exec_completes i _ ?_
    rintro rfl
    rcases offer_op ho with ⟨h, -⟩ | ⟨-, -, h⟩ | ⟨-, -, -, -, h⟩ | ⟨-, -, h⟩ | ⟨-, -, h⟩ | ⟨-, -, h⟩ | ⟨-, -, h⟩
    · exact ht h
    all_goals cases h
  | illegal w => exact ⟨_, rfl⟩
  | reset => exact ⟨_, rfl⟩

/-- The offer of a turn that is not the FOREGROUND's or the CONVERTER's reads no input of the environment. -/
theorem dispatcherOffer_env (s : State) (e : Env) : dispatcherOffer { s with env := e } = dispatcherOffer s := rfl

/-- What one scheduled step can do: the agent is held, it carries out the operation its turn brings, the host
port rejects a word, or RESET. `u` differs from `s` in the environment only. -/
theorem stepsBy_cases {t : Turn} {s s' : State} (h : StepsBy t s s') :
    ∃ e₀ e : Env, e₀.inner = none ∧ e.inner = none ∧
      let u := { s with env := e }
      s' = u ∨ (∃ i, offer t { s with env := e₀ } = .op i ∧ exec i u = .next s') ∨
      (s.seq = 0#2 ∧ t = .foreground ∧ ∃ w, decodeHost w = none ∧ s' = illegalCommand w u) ∨
      (t = .resetLine ∧ s' = resetLine u) := by
  obtain ⟨e, hi, rfl, h⟩ := h
  obtain ⟨e', hi', h⟩ := step_next hi h
  refine ⟨e.popTurn, e', ?_, hi', h⟩
  unfold Env.popTurn Env.countDraw
  split <;> exact hi

/-- A run of the machine's own `step` is a run under the schedule its states hold. -/
theorem run_of_steps {r : Nat → State} (hi : ∀ n, (r n).env.inner = none)
    (h : ∀ n, step (r n) = .next (r (n + 1))) : Run (fun n => (r n).env.turn) r :=
  fun n => ⟨(r n).env, hi n, rfl, h n⟩

/-- A relation that every step keeps, whatever the environment offers, holds all along a run. -/
theorem run_keeps {σ : Nat → Turn} {r : Nat → State} {P : State → Prop} (hr : Run σ r) (h0 : P (r 0))
    (henv : ∀ (s : State) (e : Env), e.inner = none → P s → P { s with env := e })
    (hstep : ∀ s t, P s → step s = .next t → P t) (n : Nat) : P (r n) := by
  induction n with
  | zero => exact h0
  | succ n ih =>
    obtain ⟨e, hi, -, h⟩ := hr n
    exact hstep _ _ (henv _ e hi ih) h

/-- An operation that is ready, and that no other agent's step makes unready, is taken, or RESET comes. -/
theorem eventually_taken {σ : Nat → Turn} {r : Nat → State} (hf : WeaklyFair σ r) (o : FairOp) {n : Nat}
    (hn : o.ready (r n) = true)
    (keep : ∀ m, n ≤ m → o.ready (r m) = true → σ m ≠ o.agent → σ m ≠ .resetLine →
      o.ready (r (m + 1)) = true) :
    ∃ m, n ≤ m ∧ o.ready (r m) = true ∧ (σ m = .resetLine ∨ σ m = o.agent) := by
  by_contra hno
  have hready : ∀ k, o.ready (r (n + k)) = true := by
    intro k
    induction k with
    | zero => exact hn
    | succ k ih =>
      have hle := Nat.le_add_right n k
      exact keep _ hle ih (fun h => hno ⟨_, hle, ih, .inr h⟩) (fun h => hno ⟨_, hle, ih, .inl h⟩)
  have hall : ∀ m, n ≤ m → o.ready (r m) = true := by
    intro m hm
    obtain ⟨k, rfl⟩ := Nat.exists_eq_add_of_le hm
    exact hready k
  obtain ⟨m, hm, ht⟩ := hf o n hall
  exact hno ⟨m, hm, hall m hm, .inr ht⟩

end Sys2Proof.Machine
end

