-- ==== Sys2Proof/Tests/Slice0.lean ====
section
/-! SUPPORT. The model's own tests. Expected values come from 95_test_vectors (the section stands in each
comment) and from the encodings of 30_encoding, never from the model. Each theorem named `witness_…` shows a
concrete state and operands that meet all hypotheses of the statement it names, clause by clause. -/

namespace Sys2Proof.Tests

open Sys2Proof Sys2Proof.Machine

/-! ### Helper states -/

/-- Instance A of 95_test_vectors: `RELOAD_CONST` = 7. -/
def instA : Params := { fBase := 76800, corr := 0, nChan := 6, tConv := 0 }

/-- Instance Z: `RELOAD_CONST` = −1. -/
def instZ : Params := { fBase := 9599, corr := 0, nChan := 6, tConv := 0 }

/-- Instance A right after reset. -/
def sReset : State := State.resetWith instA 0#10 0#16

/-- Instance A after `INIT 0, 1` (section 8, first row). -/
def sRun : State :=
  { sReset with
    reload := 7#16, tmrEn := true, adcEn := true, adcRef := true, chan := 0#4, adcAte := true, adcIe := true,
    pinIn := 1#16, dinDis := 1#16, modem := 1#8, inited := true, outEn := true }

/-- A tick about to happen. -/
def sTick : State := { sRun with cnt := 7#16 }

/-- A conversion under way. -/
def sBusy : State := { sRun with tickf := true, adcBusy := true }

/-- A request pending. -/
def sDone : State := { sRun with tickf := true, adcf := true, adcData := 255#10 }

/-- The dispatcher before ACK. -/
def sAck : State := { sRun with tickf := true, adcData := 255#10, seq := 1#2 }

/-- The dispatcher before CAPT, one empty modem answer queued. -/
def sCapt (raw : Raw) : State :=
  { sRun with adcData := raw, seq := 2#2, env := { Env.empty with newins := [[]] } }

/-- The dispatcher before PLAY with given flags and one modem answer queued. -/
def sPlay (txen key : Bool) (v : Byte) (fw : List FlagWrite) : State :=
  { sRun with txen := txen, key := key, seq := 3#2, env := { Env.empty with reqouts := [(v, fw)] } }

/-- The same state with turns on the agenda. -/
def withTurns (s : State) (l : List Turn) : State := { s with env := { s.env with agenda := l } }

/-- The same state with words at the host port and the foreground's turn. -/
def withHost (s : State) (ws : List Word) : State :=
  { s with env := { s.env with agenda := [.foreground], hcmd := ws } }

/-- One field of the state after an operation. -/
def after {α : Type} (f : State → α) (i : Instr) (s : State) : Option α := (nextState (exec i s)).map f

/-- One field of the state after a step. -/
def stepped {α : Type} (f : State → α) (s : State) : Option α := (nextState (step s)).map f

/-! ### WellFormed: the one check there is, with ill-formed terms it refuses (R83, R11) -/

theorem test_wf_sample_too_large : (Instr.newin 1#8 32768).wf = false := by decide
theorem test_wf_sample_too_small : (Instr.newin 1#8 (-32769)).wf = false := by decide
theorem test_wf_sample_bounds : (Instr.newin 1#8 32767).wf = true ∧ (Instr.newin 1#8 (-32768)).wf = true := by
  decide

/-! ### Decoding: words from section 2, at least one per constructor -/

theorem test_decode_host :
    decode 0x01050002#32 = .ok (.init 2#4 5#8) ∧ decode 0x01FF0005#32 = .ok (.init 5#4 255#8) ∧
    decode 0x0101000F#32 = .ok (.init 15#4 1#8) ∧ decode 0x02000000#32 = .ok (.stxe false) ∧
    decode 0x02000001#32 = .ok (.stxe true) ∧ decode 0x03000000#32 = .ok (.skey false) ∧
    decode 0x03000001#32 = .ok (.skey true) ∧ decode 0x04000000#32 = .ok .ltxe ∧
    decode 0x05000000#32 = .ok .lkey := by decide

theorem test_decode_primitive :
    decode 0x10000681#32 = .ok (.cfgclk 1665#16) ∧ decode 0x1000FFFF#32 = .ok (.cfgclk 65535#16) ∧
    decode 0x11000002#32 = .ok (.cfgadc 2#4) ∧ decode 0x12000038#32 = .ok (.wrout 0x38#8) ∧
    decode 0x13000000#32 = .ok .rdin := by decide

theorem test_decode_micro_and_modem :
    decode 0x20000000#32 = .ok .ack ∧ decode 0x21000000#32 = .ok .capt ∧ decode 0x22000000#32 = .ok .play ∧
    decode 0x3001FFBF#32 = .ok (.newin 1#8 (-65)) ∧ decode 0x3001007F#32 = .ok (.newin 1#8 127) ∧
    decode 0x30FFFF80#32 = .ok (.newin 255#8 (-128)) ∧ decode 0x31050000#32 = .ok (.reqout 5#8) := by decide

theorem test_decode_event :
    decode 0x40000000#32 = .ok .clk ∧ decode 0x41000000#32 = .ok .trig ∧
    decode 0x42000203#32 = .ok (.conv 515#10) ∧ decode 0x420003FF#32 = .ok (.conv 1023#10) ∧
    decode 0x43000000#32 = .ok .disp := by decide

/-- The bits of `INIT 2, 5` written out field by field: `op`, `h`, then `arg` with its zero bits and `ch`. -/
theorem test_decode_bit_by_bit :
    decode (0b00000001#8 ++ 0b00000101#8 ++ 0b000000000000#12 ++ 0b0010#4) = .ok (.init 2#4 5#8) ∧
    decode (0b00110000#8 ++ 0b00000001#8 ++ 0b1111111110111111#16) = .ok (.newin 1#8 (-65)) ∧
    decode (0b01000010#8 ++ 0b00000000#8 ++ 0b000000#6 ++ 0b1000000011#10) = .ok (.conv 515#10) := by decide

/-- Section 2, illegal words: reserved codes and must-be-zero bits are rejected by name. -/
theorem test_decode_rejects_by_name :
    decode 0x00000000#32 = .error (.reservedOp 0x00#8) ∧ decode 0x06000000#32 = .error (.reservedOp 0x06#8) ∧
    decode 0xFFFFFFFF#32 = .error (.reservedOp 0xFF#8) ∧ decode 0x02000002#32 = .error (.mustBeZero 0x02#8) ∧
    decode 0x02010001#32 = .error (.mustBeZero 0x02#8) ∧ decode 0x04000001#32 = .error (.mustBeZero 0x04#8) ∧
    decode 0x01000010#32 = .error (.mustBeZero 0x01#8) ∧
    decode 0x0101FFF0#32 = .error (.mustBeZero 0x01#8) := by decide

/-- Section 2: words of another class are no host commands. -/
theorem test_host_port_refuses_other_classes :
    decodeHost 0x12000088#32 = none ∧ decodeHost 0x10000681#32 = none ∧ decodeHost 0x20000000#32 = none ∧
    decodeHost 0x31010000#32 = none ∧ decodeHost 0x42000203#32 = none := by decide

/-- No word matches two rows of R84. -/
theorem test_rows_do_not_overlap :
    opcodeTable.Pairwise fun r q => r.pattern &&& (r.mask &&& q.mask) ≠ q.pattern &&& (r.mask &&& q.mask) := by
  decide

/-! ### One operation at a time -/

/-- Section 3: the divisor at the edges of its range, with truncation toward zero. -/
theorem test_divisor_table :
    reloadConst { instA with fBase := 16000000 } = 1665 ∧ reloadConst { instA with fBase := 15993599 } = 1664 ∧
    reloadConst { instA with fBase := 9600 } = 0 ∧ reloadConst { instA with fBase := 9599 } = -1 ∧
    reloadConst { instA with fBase := 100, corr := -200 } = -1 ∧
    reloadConst { instA with fBase := 400, corr := -10000 } = -2 ∧
    reloadFits { instA with fBase := 629155199 } = true ∧
    reloadFits { instA with fBase := 629155200 } = false := by decide

/-- Section 3: an edge that is no tick, and the tick. -/
theorem test_clk_counts_and_ticks :
    after (fun t => (t.cnt, t.tickf)) .clk sRun = some (1#16, false) ∧
    after (fun t => (t.cnt, t.tickf, t.adcBusy, t.hist)) .clk sTick =
      some (0#16, true, true, [0x40000000#32, 0x41000000#32]) := by decide

/-- Section 7, last row, and section 3: `SEQ` = 2 or `ADCF` = 1 on a tick is OVERRUN. -/
theorem test_clk_overrun :
    exec .clk { sTick with seq := 2#2 } = .fault .overrun ∧
    exec .clk { sTick with adcf := true } = .fault .overrun := ⟨rfl, rfl⟩

theorem test_cfgclk : after (fun t => (t.reload, t.cnt, t.tmrEn)) (.cfgclk 3#16) sTick = some (3#16, 0#16, true) := by
  decide

/-- Section 4: CFGADC 2 from reset. -/
theorem test_cfgadc :
    after (fun t => (t.chan, t.pinIn, t.dinDis)) (.cfgadc 2#4) sReset = some (2#4, 4#16, 4#16) ∧
    after (fun t => (t.adcRef, t.adcAte, t.adcIe, t.adcEn)) (.cfgadc 2#4) sReset =
      some (true, true, true, true) := by decide

theorem test_trig : after (·.adcBusy) .trig sRun = some true ∧ after (·.adcBusy) .trig sReset = some false := by
  decide

/-- Section 4: draw 515. -/
theorem test_conv :
    after (fun t => (t.adcData, t.adcBusy, t.adcf)) (.conv 515#10) sBusy = some (0x203#10, false, true) ∧
    after (fun t => (t.adcData, t.adcf)) (.conv 515#10) sRun = some (0#10, false) := by decide

theorem test_rdin : after (·.ports.rdinResult) .rdin (sCapt 1023#10) = some 0x03FF#16 := by decide

/-- Section 4, the recentering table. -/
theorem test_capt_samples :
    after (·.sample) .capt (sCapt 0#10) = some 0xFF80#16 ∧ after (·.sample) .capt (sCapt 4#10) = some 0xFF81#16 ∧
    after (·.sample) .capt (sCapt 128#10) = some 0xFFA0#16 ∧ after (·.sample) .capt (sCapt 511#10) = some 0xFFFF#16 ∧
    after (·.sample) .capt (sCapt 512#10) = some 0#16 ∧ after (·.sample) .capt (sCapt 1023#10) = some 0x7F#16 := by
  decide

/-- Section 7: CAPT with raw 255. -/
theorem test_capt_history :
    after (fun t => (t.sample, t.seq, t.hist)) .capt (sCapt 255#10) =
      some (0xFFBF#16, 3#2, [0x21000000#32, 0x13000000#32, 0x3001FFBF#32]) := by decide

theorem test_newin_leaves_flags :
    after (fun t => (t.ports.mout, t.txen, t.ports.mrspWrites)) (.newin 255#8 (-128))
      { sRun with env := { Env.empty with newins := [[⟨.txen, true⟩]] } } =
      some (0x30FFFF80#32, false, [⟨.txen, true⟩]) := by decide

theorem test_wrout :
    after (fun t => (t.out, dacPins t, pttPin t)) (.wrout 0x38#8) sRun = some (0x38#8, some 3#4, some true) ∧
    after (fun t => (t.out, dacPins t, pttPin t)) (.wrout 0x38#8) sReset = some (0x38#8, none, none) := by decide

/-- Section 5: idle rows. -/
theorem test_play_idle :
    after (fun t => (t.out, t.seq, t.hist)) .play (sPlay false false 0x37#8 []) =
      some (0x80#8, 0#2, [0x22000000#32, 0x12000080#32]) ∧
    after (fun t => (t.out, dacPins t, pttPin t)) .play (sPlay false true 0x37#8 []) =
      some (0x88#8, some 8#4, some true) := by decide

/-- Section 5: modulating rows; the modem's late flag write changes only what follows. -/
theorem test_play_modulating :
    after (fun t => (t.out, t.hist)) .play (sPlay true false 0x37#8 []) =
      some (0x38#8, [0x22000000#32, 0x31010000#32, 0x12000038#32]) ∧
    after (fun t => (t.out, t.txen, t.key)) .play (sPlay true true 0xF4#8 [⟨.txen, false⟩]) =
      some (0xF8#8, false, true) := by decide

theorem test_reqout :
    after (fun t => (t.ports.mout, t.ports.mrspSample, t.out)) (.reqout 1#8) (sPlay true false 0x37#8 []) =
      some (0x31010000#32, 0x37#8, 0#8) := by decide

/-- Section 6. -/
theorem test_stxe_skey :
    after (fun t => (t.txen, t.key)) (.stxe true) { sRun with key := true } = some (true, true) ∧
    after (fun t => (t.txen, t.key)) (.skey false) { sRun with txen := true, key := true } = some (true, false) := by
  decide

/-- Section 6: responses, and nothing while `SEQ` is not 0. -/
theorem test_ltxe_lkey :
    after (·.ports.hrsp) .ltxe { sRun with txen := true } = some 1#32 ∧
    after (·.ports.hrsp) .lkey { sRun with txen := true } = some 0#32 ∧
    after (·.ports.hrsp) .lkey { sRun with key := true } = some 1#32 ∧
    after (·.hist) .ltxe { sAck with txen := true } = some [] := by decide

/-- Section 7. -/
theorem test_disp :
    after (fun t => (t.adcf, t.seq, t.tickf)) .disp sDone = some (false, 1#2, true) ∧
    after (fun t => (t.seq, t.hist)) .disp sRun = some (0#2, []) ∧
    after (fun t => (t.adcf, t.seq)) .disp { sDone with seq := 2#2 } = some (true, 2#2) := by decide

theorem test_ack : after (fun t => (t.tickf, t.seq)) .ack sAck = some (false, 2#2) := by decide

/-- Section 8, first row, and a repeated INIT after five edges. -/
theorem test_init_passes :
    after (fun t => ({ t with hist := [] } : State)) (.init 0#4 1#8) sReset = some sRun ∧
    after (·.hist) (.init 0#4 1#8) sReset = some [0x01010000#32, 0x10000007#32, 0x11000000#32] ∧
    after (fun t => ({ t with hist := [] } : State)) (.init 0#4 1#8) { sRun with cnt := 5#16 } = some sRun := by
  decide

/-- Section 8: each failing check, and the first failing one only. -/
theorem test_init_faults :
    after (·.fault) (.init 0#4 0#8) sReset = some 0b00001#5 ∧ after (·.fault) (.init 6#4 1#8) sReset = some 0b00010#5 ∧
    after (·.fault) (.init 6#4 0#8) sReset = some 0b00001#5 ∧
    after (·.fault) (.init 0#4 1#8) (State.resetWith instZ 0#10 0#16) = some 0b00100#5 ∧
    after (fun t => (t.fault, t.chan)) (.init 1#4 1#8) sRun = some (0b01000#5, 0#4) ∧
    after (fun t => (t.fault, t.modem)) (.init 0#4 2#8) sRun = some (0b01000#5, 1#8) := by decide

/-! ### Steps -/

/-- P3 step 3: an illegal word at the host port. -/
theorem test_step_illegal_word :
    stepped (fun t => (t.fault, t.out, t.hist)) (withHost { sReset with fault := 0b00011#5 } [0x12000088#32]) =
      some (0b10011#5, 0#8, [0x12000088#32]) := by decide

/-- The dispatcher's turn with `SEQ` = 1 fetches `ROM[0]` (section 7). -/
theorem test_step_fetches_ack :
    stepped (fun t => (t.tickf, t.seq, t.hist)) (withTurns sAck [.dispatcher]) =
      some (false, 2#2, [0x20000000#32]) := by decide

/-- P1 step 5, taken by the CONVERTER with 515 queued. -/
theorem test_step_conversion :
    stepped (fun t => (t.adcData, t.env.ain)) { withTurns sBusy [.converter] with
      env := { Env.empty with agenda := [.converter], ain := [515#10] } } = some (0x203#10, []) := by decide

/-- A placed word runs as the next step, from reset. -/
theorem test_step_placed_word :
    stepped (·.out) (State.reset.withFetchWord 32 0x12000038) = some 0x38#8 ∧
    stepped (·.reload) (State.reset.withFetchWord 32 0x01010000) = some 0x0681#16 ∧
    decodeTableWord 32 0x3001FFBF = some (.newin 1#8 (-65)) := by decide

/-- A word that spells no operation and was placed in the inner slot is refused by name. -/
theorem test_step_inner_reserved :
    step { sReset with env := { Env.empty with inner := some 0#32 } } =
      .refused (.innerReserved (.reservedOp 0#8)) := rfl

/-! ### Witnesses -/

theorem witness_DecodeEncodeRoundTrip :
    (Instr.newin 255#8 (-32768)).wf = true ∧ (Instr.newin 0#8 32767).wf = true ∧ (Instr.conv 1023#10).wf = true := by
  decide

theorem witness_EncodeDecodeRoundTrip : ∃ w i, decode w = .ok i := ⟨0x30018000#32, .newin 1#8 (-32768), by decide⟩

theorem witness_WordSpellsByMaskAndMatch :
    0x01FF000F#32 &&& 0xFF00FFF0#32 = 0x01000000#32 ∧ 0x01000010#32 &&& 0xFF00FFF0#32 ≠ 0x01000000#32 := by decide

theorem witness_OperationsIssuedByTheirClass :
    (Instr.newin 1#8 (-32768)).wf = true ∧ offer .timer sRun = .op .clk ∧
    offer .dispatcher sDone = .op .disp ∧ offer .dispatcher sAck = .op .ack ∧
    offer .converter { sBusy with env := { Env.empty with ain := [7#10] } } = .op (.conv 7#10) ∧
    offer .foreground (withHost sRun [0x04000000#32]) = .op .ltxe :=
  ⟨by decide, rfl, rfl, rfl, rfl, rfl⟩

/-- Every range at both ends, and its neighbours. -/
theorem witness_ReservedCodesRejected :
    (∀ op ∈ [0x00#8, 0x06#8, 0x0F#8, 0x14#8, 0x1F#8, 0x23#8, 0x2F#8, 0x32#8, 0x3F#8, 0x44#8, 0xFF#8],
      decode (mkWord op 0#8 0#16) = .error (.reservedOp op)) ∧
    (∀ op ∈ [0x01#8, 0x05#8, 0x10#8, 0x13#8, 0x20#8, 0x22#8, 0x30#8, 0x31#8, 0x40#8, 0x43#8],
      ∃ i, decode (mkWord op 0#8 0#16) = .ok i) ∧
    decode 0x04000001#32 = .error (.mustBeZero 0x04#8) := by
  refine ⟨by decide, ?_, by decide⟩
  intro op h
  simp only [List.mem_cons, List.not_mem_nil, or_false] at h
  rcases h with rfl | rfl | rfl | rfl | rfl | rfl | rfl | rfl | rfl | rfl <;> exact ⟨_, rfl⟩

theorem witness_StepRunsPlacedInstruction : (Instr.newin 1#8 (-65)).wf = true ∧ Instr.disp.wf = true := by decide

/-- All clauses: each state's slot is empty, its agenda holds the clause's turn, its registers meet the
clause's own condition. -/
theorem witness_TurnRunsAgentOperation :
    (∀ s ∈ [sRun, sBusy, sDone, sAck, sCapt 0#10, sPlay true true 0#8 []], ∀ t ∈ [Turn.timer, .converter, .dispatcher],
      (withTurns s [t]).env.inner = none ∧ (withTurns s [t]).env.agenda = [t]) ∧
    (sBusy.adcBusy = true ∧ sBusy.env.ain = [] ∧ sRun.adcBusy = false) ∧
    (sDone.seq = 0#2 ∧ sDone.adcf = true ∧ sDone.adcIe = true ∧ sRun.seq = 0#2 ∧ sRun.adcf = false) ∧
    (sAck.seq = 1#2 ∧ (sCapt 0#10).seq = 2#2 ∧ (sPlay true true 0#8 []).seq = 3#2) := by
  refine ⟨?_, by decide, by decide, by decide⟩
  intro s hs t _
  simp only [List.mem_cons, List.not_mem_nil, or_false] at hs
  rcases hs with rfl | rfl | rfl | rfl | rfl | rfl <;> exact ⟨rfl, rfl⟩

/-- A legal word and an illegal one, both at the port with `SEQ` = 0. -/
theorem witness_HostPortAcceptsOnlyHostCommands :
    (∀ w : Word, (withHost sRun [w]).env.inner = none ∧ (withHost sRun [w]).env.agenda = [.foreground] ∧
      (withHost sRun [w]).env.hcmd = [w] ∧ (withHost sRun [w]).seq = 0#2) ∧
    0x0101000F#32 &&& 0xFF00FFF0#32 = 0x01000000#32 ∧ 0x02000001#32 &&& 0xFFFFFFFE#32 = 0x02000000#32 ∧
    0x01000010#32 &&& 0xFF00FFF0#32 ≠ 0x01000000#32 :=
  ⟨fun _ => ⟨rfl, rfl, rfl, rfl⟩, by decide, by decide, by decide⟩

theorem witness_HostHeldDuringInvocation :
    (withHost sAck [0x04000000#32]).env.inner = none ∧
    (withHost sAck [0x04000000#32]).env.agenda = [.foreground] ∧ (withHost sAck [0x04000000#32]).seq ≠ 0#2 := by
  decide

theorem witness_ResetStepResetsRegisters :
    (withTurns sDone [.resetLine]).env.inner = none ∧ (withTurns sDone [.resetLine]).env.agenda = [.resetLine] := by
  decide

/-- The four cases of CLK. -/
theorem witness_ClkCountsTicksOrOverruns :
    sReset.tmrEn = false ∧ (sRun.tmrEn = true ∧ sRun.cnt ≠ sRun.reload) ∧
    (sTick.tmrEn = true ∧ sTick.cnt = sTick.reload ∧ serviceOpen sTick = false) ∧
    (let s : State := { sTick with adcBusy := true }; s.tmrEn = true ∧ s.cnt = s.reload ∧ s.adcBusy = true) := by
  decide

/-- Both signs, and both ends of the range that fits. -/
theorem witness_DivisorArithmetic :
    (0 : Int) ≤ (instA.fBase : Int) + instA.corr ∧ (400 : Int) + (-10000) < 0 ∧
    reloadFits { instA with fBase := 9600 } = true ∧ reloadFits { instA with fBase := 629155199 } = true ∧
    reloadFits { instA with fBase := 9599 } = false ∧ reloadFits { instA with fBase := 629155200 } = false := by
  decide

/-- Two edges with a host command and a rejected INIT between them. -/
theorem witness_TickPeriodIsReloadPlusOne :
    ∃ t, sRun.tmrEn = true ∧ sRun.cnt = 0#16 ∧
      execAll [.clk, .stxe true, .init 0#4 0#8, .clk] sRun = .next t ∧
      ∀ w ∈ t.hist.drop sRun.hist.length, opField w ≠ 0x10#8 :=
  ⟨_, rfl, rfl, rfl, show ∀ w ∈ [0x40000000#32, 0x02000001#32, 0x01000000#32, 0x40000000#32],
    opField w ≠ 0x10#8 by
      intro w h
      simp only [List.mem_cons, List.not_mem_nil, or_false] at h
      rcases h with rfl | rfl | rfl | rfl <;> decide⟩

theorem witness_TickTrainIgnoresEverythingElse :
    ∃ t₁ t₂, Instr.clk.op ≠ .init ∧ sTick.tmrEn = ({ sTick with txen := true } : State).tmrEn ∧
      sTick.cnt = ({ sTick with txen := true } : State).cnt ∧
      sTick.reload = ({ sTick with txen := true } : State).reload ∧ exec .clk sTick = .next t₁ ∧
      exec .clk { sTick with txen := true } = .next t₂ :=
  ⟨_, _, by decide, rfl, rfl, rfl, rfl, rfl⟩

theorem witness_TrigStartsConversion :
    (sRun.adcEn = true ∧ sRun.adcAte = true) ∧ (sReset.adcEn = false ∨ sReset.adcAte = false) := by decide

theorem witness_ConvCompletesConversion : sBusy.adcBusy = true ∧ sRun.adcBusy = false := by decide

theorem witness_NewinSendsSample : (sCapt 0#10).env.newins = [[]] ∧ sRun.env.newins = [] := by decide

theorem witness_CaptDeliversRecenteredSample :
    ((sCapt 0#10).seq = 2#2 ∧ (sCapt 0#10).env.newins = [[]]) ∧
    (let s : State := { sRun with seq := 2#2 }; s.seq = 2#2 ∧ s.env.newins = []) ∧ sRun.seq ≠ 2#2 := by decide

theorem witness_RecenteringLaw :
    ∃ t t', (sCapt 512#10).seq = 2#2 ∧ exec .capt (sCapt 512#10) = .next t ∧ (sCapt 512#10).adcData = 512#10 ∧
      (sCapt 1023#10).seq = 2#2 ∧ exec .capt (sCapt 1023#10) = .next t' ∧
      (sCapt 512#10).adcData.toNat ≤ (sCapt 1023#10).adcData.toNat :=
  ⟨_, _, rfl, rfl, rfl, rfl, rfl, by decide⟩

theorem witness_WroutWritesPortAndPins : sRun.outEn = true ∧ sReset.outEn = false := by decide

theorem witness_ReqoutAsksModem :
    (sPlay true false 0x37#8 []).env.reqouts = [(0x37#8, [])] ∧ sRun.env.reqouts = [] := by decide

/-- The five clauses of PLAY. -/
theorem witness_PlaySelectsOutput :
    ((sPlay true true 0xFF#8 []).seq = 3#2 ∧ (sPlay true true 0xFF#8 []).txen = true ∧
      (sPlay true true 0xFF#8 []).env.reqouts = [(0xFF#8, [])]) ∧
    (let s : State := { sRun with seq := 3#2, txen := true }; s.seq = 3#2 ∧ s.txen = true ∧ s.env.reqouts = []) ∧
    ((sPlay false true 0#8 []).seq = 3#2 ∧ (sPlay false true 0#8 []).txen = false ∧
      (sPlay false true 0#8 []).key = true) ∧
    ((sPlay false false 0#8 []).seq = 3#2 ∧ (sPlay false false 0#8 []).txen = false ∧
      (sPlay false false 0#8 []).key = false) ∧ sRun.seq ≠ 3#2 := by decide

/-- The three clauses of the table. -/
theorem witness_PlayOutputTable :
    ∀ tx key : Bool, ∃ t, (sPlay tx key 0x0F#8 []).seq = 3#2 ∧ (sPlay tx key 0x0F#8 []).outEn = true ∧
      exec .play (sPlay tx key 0x0F#8 []) = .next t ∧ (sPlay tx key 0x0F#8 []).txen = tx ∧
      (sPlay tx key 0x0F#8 []).key = key :=
  fun _ _ => ⟨_, rfl, rfl, rfl, rfl, rfl⟩

theorem witness_FlagWriteCommands :
    sRun.seq = 0#2 ∧ sAck.seq ≠ 0#2 ∧ opField 0x02000001#32 = 0x02#8 ∧
    (opField 0x02000002#32 = 0x02#8 ∧ 0x02000002#32 ≠ 0x02000000#32 ∧ 0x02000002#32 ≠ 0x02000001#32) ∧
    opField 0x03000000#32 = 0x03#8 ∧
    (opField 0x03010000#32 = 0x03#8 ∧ 0x03010000#32 ≠ 0x03000000#32 ∧ 0x03010000#32 ≠ 0x03000001#32) := by decide

theorem witness_FlagReadCommands :
    sRun.seq = 0#2 ∧ sAck.seq ≠ 0#2 ∧ opField 0x04000001#32 = 0x04#8 ∧ opField 0x05000000#32 = 0x05#8 := by decide

/-- A host write, a modem write in CAPT and one in PLAY, each changing a flag. -/
theorem witness_FlagWritersAreHostAndModem :
    (∃ t, exec (.stxe true) sRun = .next t ∧ t.txen ≠ sRun.txen) ∧
    (∃ t, exec .capt { sRun with seq := 2#2, env := { Env.empty with newins := [[⟨.key, true⟩]] } } = .next t ∧
      t.key ≠ sRun.key) ∧
    (∃ t, exec .play (sPlay true false 0#8 [⟨.txen, false⟩]) = .next t ∧ t.txen ≠ true) :=
  ⟨⟨_, rfl, by decide⟩, ⟨_, rfl, by decide⟩, ⟨_, rfl, by decide⟩⟩

/-- Both clauses: a write of `TXEN` and one of `KEY`, each with a write of the other flag after it. -/
theorem witness_LastFlagWriteWins :
    (let s : State := { sRun with seq := 2#2, env := { Env.empty with
      newins := [[⟨.txen, false⟩] ++ ⟨.txen, true⟩ :: [⟨.key, true⟩]] } };
     s.seq = 2#2 ∧ s.env.newins = ([⟨.txen, false⟩] ++ ⟨.txen, true⟩ :: [⟨.key, true⟩]) :: [] ∧
       ∀ g ∈ [(⟨.key, true⟩ : FlagWrite)], g.flag ≠ Flag.txen) ∧
    (let s : State := { sRun with seq := 2#2, env := { Env.empty with
      newins := [[] ++ ⟨.key, true⟩ :: [⟨.txen, true⟩]] } };
     s.seq = 2#2 ∧ s.env.newins = ([] ++ ⟨.key, true⟩ :: [⟨.txen, true⟩]) :: [] ∧
       ∀ g ∈ [(⟨.txen, true⟩ : FlagWrite)], g.flag ≠ Flag.key) := by decide

theorem witness_DispEntersDispatcher :
    (sDone.adcf = true ∧ sDone.adcIe = true ∧ sDone.seq = 0#2) ∧
    (sRun.adcf = false ∨ sRun.adcIe = false ∨ sRun.seq ≠ 0#2) := by decide

theorem witness_AckClearsTickFlag : sAck.seq = 1#2 ∧ sRun.seq ≠ 1#2 := by decide

/-- A pending invocation whose modem starts the transmission in its answer to NEWIN. -/
def sInvocation : State :=
  { sDone with env := { Env.empty with
      agenda := [.dispatcher, .dispatcher, .dispatcher, .dispatcher]
      newins := [[⟨.txen, true⟩]], reqouts := [(0x37#8, [])] } }

theorem witness_InvocationRunsToCompletion :
    sInvocation.env.inner = none ∧ sInvocation.adcf = true ∧ sInvocation.adcIe = true ∧ sInvocation.seq = 0#2 ∧
    sInvocation.env.agenda = .dispatcher :: .dispatcher :: .dispatcher :: .dispatcher :: [] ∧
    sInvocation.env.newins = [⟨.txen, true⟩] :: [] ∧ sInvocation.env.reqouts = (0x37#8, []) :: [] := by decide

/-- The relations hold in the state before ACK. -/
theorem inv_sAck_base : BlockInv sAck :=
  ⟨⟨by decide, by decide, by decide, by decide, by decide, by decide⟩, by decide, by decide, rfl⟩

/-- The relations hold in the state before ACK, whoever moves next. -/
theorem inv_sAck (l : List Turn) : BlockInv (withTurns sAck l) := inv_sAck_base

/-- The relations hold right before a tick. -/
theorem inv_sTick : BlockInv (withTurns sTick [.timer]) :=
  ⟨⟨by decide, by decide, by decide, by decide, by decide, by decide⟩, by decide, by decide, rfl⟩

/-- The two kinds of step that can stand there: a CLK, and the foreground held. -/
theorem witness_OnlyClkInterleavesInvocation :
    ∀ u ∈ [Turn.timer, .converter, .foreground], ∃ t,
      BlockInv (withTurns sAck [u]) ∧ (withTurns sAck [u]).seq ≠ 0#2 ∧
      (withTurns sAck [u]).env.turn ≠ .dispatcher ∧ (withTurns sAck [u]).env.turn ≠ .resetLine ∧
      step (withTurns sAck [u]) = .next t := by
  intro u h
  simp only [List.mem_cons, List.not_mem_nil, or_false] at h
  rcases h with rfl | rfl | rfl <;> exact ⟨_, inv_sAck _, by decide, by decide, by decide, rfl⟩

theorem witness_SequencerTransitions :
    (∃ t, exec .disp sDone = .next t ∧ t.seq ≠ sDone.seq) ∧ (∃ t, exec .ack sAck = .next t ∧ t.seq ≠ sAck.seq) ∧
    (∃ t, exec .capt (sCapt 0#10) = .next t ∧ t.seq ≠ 2#2) ∧
    (∃ t, exec .play (sPlay false true 0#8 []) = .next t ∧ t.seq ≠ 3#2) :=
  ⟨⟨_, rfl, by decide⟩, ⟨_, rfl, by decide⟩, ⟨_, rfl, by decide⟩, ⟨_, rfl, by decide⟩⟩

/-- The five clauses, each with its own operands. -/
theorem witness_InitRejectsByFirstFailingCheck :
    (sReset.seq = 0#2 ∧ (0#8 : Handle) = 0#8) ∧
    ((1#8 : Handle) ≠ 0#8 ∧ sReset.params.nChan ≤ (6#4 : Channel).toNat) ∧
    (let s := State.resetWith instZ 0#10 0#16
     s.seq = 0#2 ∧ (0#4 : Channel).toNat < s.params.nChan ∧ reloadConst s.params < 0) ∧
    (sRun.seq = 0#2 ∧ (5#4 : Channel).toNat < sRun.params.nChan ∧
      ¬ (reloadConst sRun.params < 0 ∨ 65535 < reloadConst sRun.params) ∧ sRun.inited = true ∧
      ((5#4 : Channel) ≠ sRun.chan ∨ (1#8 : Handle) ≠ sRun.modem)) ∧
    sAck.seq ≠ 0#2 := by decide

/-- From reset, with the highest channel and handle; and in a running session with the same operands. -/
theorem witness_InitStartsSession :
    (sReset.seq = 0#2 ∧ (255#8 : Handle) ≠ 0#8 ∧ (5#4 : Channel).toNat < sReset.params.nChan ∧
      0 ≤ reloadConst sReset.params ∧ reloadConst sReset.params ≤ 65535 ∧
      (sReset.inited = true → (5#4 : Channel) = sReset.chan ∧ (255#8 : Handle) = sReset.modem)) ∧
    (sRun.inited = true → (0#4 : Channel) = sRun.chan ∧ (1#8 : Handle) = sRun.modem) := by decide

theorem witness_InitIsIdempotent :
    BlockInv { sRun with cnt := 5#16 } ∧ sRun.inited = true ∧ sRun.seq = 0#2 :=
  ⟨⟨⟨by decide, by decide, by decide, by decide, by decide, by decide⟩, by decide, by decide, rfl⟩, rfl, rfl⟩

theorem witness_SessionConfigurationImmutable :
    ∃ t, BlockInv (withHost sRun [0x01010000#32]) ∧ (withHost sRun [0x01010000#32]).inited = true ∧
      (withHost sRun [0x01010000#32]).env.turn ≠ .resetLine ∧ step (withHost sRun [0x01010000#32]) = .next t :=
  ⟨_, ⟨⟨by decide, by decide, by decide, by decide, by decide, by decide⟩, by decide, by decide, rfl⟩,
    rfl, by decide, rfl⟩

theorem witness_FaultBitsAreSticky :
    ∃ t, (withHost { sRun with fault := 0b00001#5 } [0#32]).env.turn ≠ .resetLine ∧
      step (withHost { sRun with fault := 0b00001#5 } [0#32]) = .next t :=
  ⟨_, by decide, rfl⟩

theorem witness_FaultingStepChangesOnlyFault :
    ∃ t, (withHost sRun [0x06000000#32]).env.turn ≠ .resetLine ∧ step (withHost sRun [0x06000000#32]) = .next t ∧
      t.fault ≠ (withHost sRun [0x06000000#32]).fault :=
  ⟨_, by decide, rfl, by decide⟩

theorem witness_RegistersHaveOnlyTheirWriters :
    ∃ t, exec .rdin sRun = .next t ∧ Instr.rdin.op ∉ [Op.clk, .cfgclk, .init, .ack, .cfgadc, .trig, .conv, .disp,
      .capt, .wrout, .play, .ltxe, .lkey, .newin, .reqout] :=
  ⟨_, rfl, by decide⟩

theorem witness_HistoryOnlyGrows :
    ∃ t, (withTurns sTick [.timer]).env.turn ≠ .resetLine ∧ step (withTurns sTick [.timer]) = .next t :=
  ⟨_, by decide, rfl⟩

theorem witness_ParametersNeverChange : ∃ t, step (withTurns sRun [.resetLine]) = .next t := ⟨_, rfl⟩

/-- A tick, in a state whose history is that of the INIT before it. -/
theorem witness_RelationsKeptByEveryStep :
    ∃ t, BlockInv (withTurns sTick [.timer]) ∧ step (withTurns sTick [.timer]) = .next t :=
  ⟨_, inv_sTick, rfl⟩

theorem witness_HistoryKeepsServiceOrder :
    ∃ t, BlockInv (withTurns sTick [.timer]) ∧ Ordered (withTurns sTick [.timer]) ∧
      step (withTurns sTick [.timer]) = .next t :=
  ⟨_, inv_sTick, fun _ => by decide, rfl⟩

/-! ### A fair run: the CONVERTER and the DISPATCHER move in turn -/

/-- Even steps are the CONVERTER's, odd steps the DISPATCHER's. -/
def altTurn (n : Nat) : Turn := if n % 2 = 0 then .converter else .dispatcher

/-- The state with one turn on the agenda. -/
def offered (s : State) (t : Turn) : State := { s with env := { s.env with inner := none, agenda := [t] } }

/-- The state after the turn of `t`. -/
def advance (t : Turn) (s : State) : State := (nextState (step (offered s t))).getD s

/-- The run from `s`. -/
def altRun (s : State) : Nat → State
  | 0 => s
  | n + 1 => advance (altTurn n) (altRun s n)

theorem altTurn_ne (n : Nat) : altTurn n ≠ .timer ∧ altTurn n ≠ .resetLine := by
  unfold altTurn; split <;> decide

theorem step_advance (t : Turn) (s : State) (h : t ≠ .timer) : step (offered s t) = .next (advance t s) := by
  obtain ⟨u, hu⟩ := turn_completes (s := offered s t) rfl h
  rw [advance, hu]; rfl

theorem altRun_fair (s : State) : FairRun altTurn (altRun s) := by
  constructor
  · intro n
    exact ⟨(offered (altRun s n) (altTurn n)).env, rfl, rfl, step_advance _ _ (altTurn_ne n).1⟩
  · intro o n _
    have h : ∀ b, b < 2 → altTurn (2 * n + b) = if b = 0 then .converter else .dispatcher := by
      intro b hb
      rw [altTurn, show (2 * n + b) % 2 = b by omega]
    cases o
    case conv => exact ⟨2 * n + 0, by omega, h 0 (by decide)⟩
    all_goals exact ⟨2 * n + 1, by omega, h 1 (by decide)⟩

theorem witness_ConversionInFlightCompletes :
    FairRun altTurn (altRun sBusy) ∧ (altRun sBusy 0).adcBusy = true := ⟨altRun_fair _, rfl⟩

theorem witness_PendingInvocationIsEntered :
    FairRun altTurn (altRun sDone) ∧ (altRun sDone 0).adcf = true ∧ (altRun sDone 0).adcIe = true ∧
      (altRun sDone 0).seq = 0#2 := ⟨altRun_fair _, rfl, rfl, rfl⟩

theorem witness_BegunInvocationEnds :
    FairRun altTurn (altRun sAck) ∧ (altRun sAck 0).seq ≠ 0#2 := ⟨altRun_fair _, by decide⟩

theorem witness_EveryTickIsServed :
    FairRun altTurn (altRun sBusy) ∧ BlockInv (altRun sBusy 0) ∧ (altRun sBusy 0).tickf = true :=
  ⟨altRun_fair _, ⟨⟨by decide, by decide, by decide, by decide, by decide, by decide⟩, by decide, by decide, rfl⟩,
    rfl⟩

end Sys2Proof.Tests
end

/-! The statements of 00_scope: which operation a turn runs (R9, R10), what stops the machine (R207), and
the parameters of R7. -/

namespace Sys2Proof.Machine

/-! ### Nothing writes a parameter (R7, R43) -/

@[simp] theorem captured_params (s : State) : (captured s).params = s.params := by
  rw [captured_eq]

@[simp] theorem played_params (s : State) : (played s).params = s.params := by
  cases h : s.txen with
  | false => rw [played_idle s h]
  | true => rw [played_modulating s h]

@[simp] theorem resetLine_params (s : State) : (resetLine s).params = s.params := rfl

@[simp] theorem illegalCommand_params (w : Word) (s : State) : (illegalCommand w s).params = s.params := rfl

/-- An operation that runs leaves the parameters as they are. -/
theorem Ran.params_eq {i : Instr} {s t : State} (h : Ran i s t) : t.params = s.params := by
  cases h with
  | initPasses _ hc => rw [initialized_of_none hc]
  | _ => simp

theorem exec_params {i : Instr} {s t : State} (h : exec i s = .next t) : t.params = s.params := by
  rcases exec_next h with rfl | hran
  · rfl
  · exact hran.params_eq

/-- A word placed from outside runs as the operation it spells, or has no next state. -/
theorem stepInner_next {w : Word} {s t : State} (h : stepInner w s = .next t) :
    ∃ i, decode w = .ok i ∧ exec i s = .next t := by
  unfold stepInner at h
  split at h
  · exact ⟨_, ‹_›, h⟩
  · cases h

theorem step_params {s t : State} (h : step s = .next t) : t.params = s.params := by
  cases hi : s.env.inner with
  | some w =>
    rw [step_of_inner hi] at h
    obtain ⟨i, -, hexec⟩ := stepInner_next h
    simpa using exec_params hexec
  | none =>
    obtain ⟨e, -, rfl | ⟨i, -, hexec⟩ | ⟨-, -, w, -, rfl⟩ | ⟨-, rfl⟩⟩ := step_next hi h
    · rfl
    · simpa using exec_params hexec
    · simp
    · simp

/-- Settles O47: every operation and every other outcome of a step leaves the parameters as they are. -/
theorem parametersNeverChange : Obligations.ParametersNeverChange := by
  unfold Obligations.ParametersNeverChange
  exact fun _ _ h => step_params h

/-! ### What stops the machine (R207) -/

theorem execClk_of_stopped {s : State} (h : s.tmrEn = false) : execClk s = .next (record .clk s) := by
  simp [execClk, h]

theorem execClk_of_counting {s : State} (h : s.tmrEn = true) (hc : s.cnt ≠ s.reload) :
    execClk s = .next { record .clk s with cnt := s.cnt + 1#16 } := by
  simp [execClk, h, hc]

theorem execClk_of_overrun {s : State} (h : s.tmrEn = true) (hc : s.cnt = s.reload)
    (ho : serviceOpen s = true) : execClk s = .fault .overrun := by
  have ho' : serviceOpen (record .clk s) = true := ho
  simp [execClk, h, hc, ho', -serviceOpen_iff]

theorem execClk_of_tick {s : State} (h : s.tmrEn = true) (hc : s.cnt = s.reload)
    (ho : serviceOpen s = false) :
    execClk s = .next (trigger { record .clk s with cnt := 0#16, tickf := true }) := by
  have ho' : serviceOpen (record .clk s) = false := ho
  simp [execClk, h, hc, ho']

/-- Every operation has a next state, but for the CLK that is an overrun tick. -/
theorem exec_completes_or_overruns (i : Instr) (s : State) :
    (∃ t, exec i s = .next t) ∨
      (i = .clk ∧ s.tmrEn = true ∧ s.cnt = s.reload ∧ serviceOpen s = true ∧
        exec i s = .fault .overrun) := by
  by_cases hi : i = .clk
  · subst hi
    cases hen : s.tmrEn with
    | false => exact .inl ⟨_, execClk_of_stopped hen⟩
    | true =>
      by_cases hc : s.cnt = s.reload
      · cases ho : serviceOpen s with
        | false => exact .inl ⟨_, execClk_of_tick hen hc ho⟩
        | true => exact .inr ⟨rfl, rfl, hc, rfl, execClk_of_overrun hen hc ho⟩
      · exact .inl ⟨_, execClk_of_counting hen hc⟩
  · exact .inl (exec_completes i s hi)

theorem exec_ne_refused (i : Instr) (s : State) (r : Refusal) : exec i s ≠ .refused r := by
  rcases exec_completes_or_overruns i s with ⟨t, h⟩ | ⟨-, -, -, -, h⟩ <;> rw [h] <;> nofun

theorem exec_eq_fault_iff {i : Instr} {s : State} {f : Fault} :
    exec i s = .fault f ↔
      i = .clk ∧ s.tmrEn = true ∧ s.cnt = s.reload ∧ serviceOpen s = true := by
  constructor
  · intro hf
    rcases exec_completes_or_overruns i s with ⟨t, h⟩ | ⟨hi, hen, hc, ho, -⟩
    · rw [h] at hf; cases hf
    · exact ⟨hi, hen, hc, ho⟩
  · rintro ⟨rfl, hen, hc, ho⟩
    cases f
    exact execClk_of_overrun hen hc ho

/-- Settles O41: only CLK has a branch without a next state, the overrun tick of R207. -/
theorem onlyOverrunStops : Obligations.OnlyOverrunStops := by
  unfold Obligations.OnlyOverrunStops
  intro i s
  refine ⟨exec_ne_refused i s, fun f => ?_⟩
  rw [exec_eq_fault_iff, serviceOpen_iff, or_assoc, or_assoc]

/-! ### What a turn runs (R9, R172) -/

/-- The head of the agenda moves, and is used up (log 1). -/
theorem step_of_agenda {s : State} {t : Turn} {rest : List Turn} (hi : s.env.inner = none)
    (ha : s.env.agenda = t :: rest) :
    step s = stepTurn t { s with env := { s.env with agenda := rest } } := by
  rw [step_of_turn hi, Env.turn, Env.popTurn, ha]

theorem raw_of_cons {e : Env} {r : Raw} {rs : List Raw} (h : e.ain = r :: rs) : e.raw = r := by
  rw [Env.raw, h]

theorem popRaw_of_cons {e : Env} {r : Raw} {rs : List Raw} (h : e.ain = r :: rs) :
    e.popRaw = { e with ain := rs } := by
  rw [Env.popRaw, h]

theorem popRaw_of_nil {e : Env} (h : e.ain = []) : e.popRaw = e.countDraw := by
  rw [Env.popRaw, h]

theorem stepTurn_timer (s : State) : stepTurn .timer s = exec .clk s := rfl

theorem stepTurn_converter_busy {s : State} (h : s.adcBusy = true) :
    stepTurn .converter s = exec (.conv s.env.raw) { s with env := s.env.popRaw } := by
  have ho : offer .converter s = .op (.conv s.env.raw) := if_pos h
  have he : offerEnv .converter s = s.env.popRaw := if_pos h
  rw [stepTurn, ho, he, runOffer]

theorem stepTurn_converter_held {s : State} (h : s.adcBusy = false) :
    stepTurn .converter s = .next s := by
  have ho : offer .converter s = .held := if_neg (by simp [h])
  have he : offerEnv .converter s = s.env := if_neg (by simp [h])
  rw [stepTurn, ho, he, runOffer]

/-- The DISPATCHER's turn, by `SEQ` (R171, R172). -/
theorem stepTurn_dispatcher (s : State) :
    stepTurn .dispatcher s =
      if s.seq = 0#2 then (if s.adcf = true ∧ s.adcIe = true then exec .disp s else .next s)
      else if s.seq = 1#2 then exec .ack s else if s.seq = 2#2 then exec .capt s else exec .play s := by
  have hrun : stepTurn .dispatcher s = runOffer (dispatcherOffer s) s := rfl
  rw [hrun, dispatcherOffer_eq]
  split_ifs <;> rfl

/-- Settles O8: the head of the agenda moves, and each agent's turn is its operation or holds. -/
theorem turnRunsAgentOperation : Obligations.TurnRunsAgentOperation := by
  unfold Obligations.TurnRunsAgentOperation
  intro s t rest hi ha s'
  have hstep : step s = stepTurn t s' := step_of_agenda hi ha
  rw [hstep]
  refine ⟨?timer, ?queued, ?free, ?idle, ?disp, ?held, ?ack, ?capt, ?play⟩ <;> rintro rfl
  case timer => exact stepTurn_timer s'
  case queued =>
    intro hb r rs hr
    rw [stepTurn_converter_busy (s := s') hb, raw_of_cons (e := s'.env) hr, popRaw_of_cons (e := s'.env) hr]
  case free =>
    intro hb hnil
    refine ⟨s'.env.raw, ?_⟩
    rw [stepTurn_converter_busy (s := s') hb, popRaw_of_nil (e := s'.env) hnil]
    rfl
  case idle => exact stepTurn_converter_held (s := s')
  all_goals
    intro hs
    rw [stepTurn_dispatcher, show s'.seq = _ from hs]
  case disp =>
    intro hf hie
    rw [if_pos rfl, if_pos ⟨hf, hie⟩]
  case held =>
    intro hg
    have hno : ¬ (s'.adcf = true ∧ s'.adcIe = true) := by
      rw [not_and_or, Bool.not_eq_true, Bool.not_eq_true]
      exact hg
    rw [if_pos rfl, if_neg hno]
  all_goals rfl

end Sys2Proof.Machine

/-! The statements of 10_state: the reset values (R45), who writes which register (R21 to R42), and the six
relations between the registers (R44), which every step keeps. -/

namespace Sys2Proof.Machine

/-! ### What PLAY writes, and what no operation writes -/

theorem modulatingByte_low (v : Byte) : (modulatingByte v).extractLsb' 0 3 = 0#3 := by
  revert v; decide

theorem idleByte_low (key : Bool) : (idleByte key).extractLsb' 0 3 = 0#3 := by
  revert key; decide

/-- PLAY writes `OUT`, with its low bits zero, `SEQ`, the two flags, the history and the signals of the modem
transaction, and nothing else (R142). -/
theorem played_frame (s : State) :
    ∃ (v : Byte) (txen key : Bool) (hist : List Word) (ports : Ports) (env : Env),
      v.extractLsb' 0 3 = 0#3 ∧ ports.hrsp = s.ports.hrsp ∧ env.inner = s.env.inner ∧
      played s = { s with out := v, seq := 0#2, txen, key, hist, ports, env } := by
  cases h : s.txen with
  | false => exact ⟨_, _, _, _, _, _, idleByte_low s.key, rfl, rfl, h ▸ played_idle s h⟩
  | true =>
    refine ⟨_, _, _, _, _, _, modulatingByte_low _, ?_, popReqout_inner _, played_modulating s h⟩
    rfl

/-- An operation that runs changes no word waiting in the inner slot (log 12). -/
theorem Ran.inner_eq {i : Instr} {s t : State} (h : Ran i s t) : t.env.inner = s.env.inner := by
  cases h with
  | initPasses _ hc => rw [initialized_of_none hc]
  | capt _ => simp [captured_eq]
  | play _ =>
    obtain ⟨_, _, _, _, _, _, -, -, hinner, heq⟩ := played_frame s
    rw [heq, hinner]
  | _ => simp

/-! ### Reset values (R45) -/

/-- Settles O44: the reset state is written out in `State.resetWith`, and the outputs follow from it. -/
theorem resetValues : Obligations.ResetValues := by
  unfold Obligations.ResetValues
  intro p d x
  simp [State.resetWith, dacPins, pttPin, hrdy]

/-! ### `SEQ` (R41) -/

/-- An operation that runs leaves `SEQ` alone, or is one of the four that move it. -/
theorem Ran.seq_cases {i : Instr} {s t : State} (h : Ran i s t) :
    t.seq = s.seq ∨ (i = .disp ∧ s.seq = 0#2 ∧ t.seq = 1#2) ∨ (i = .ack ∧ s.seq = 1#2 ∧ t.seq = 2#2) ∨
      (i = .capt ∧ s.seq = 2#2 ∧ t.seq = 3#2) ∨ (i = .play ∧ s.seq = 3#2 ∧ t.seq = 0#2) := by
  cases h with
  | initPasses _ hc => exact .inl (by rw [initialized_of_none hc])
  | disp _ _ hs => exact .inr (.inl ⟨rfl, hs, rfl⟩)
  | ack hs => exact .inr (.inr (.inl ⟨rfl, hs, rfl⟩))
  | capt hs => exact .inr (.inr (.inr (.inl ⟨rfl, hs, rfl⟩)))
  | play hs => exact .inr (.inr (.inr (.inr ⟨rfl, hs, rfl⟩)))
  | _ => exact .inl (by simp)

/-- Settles O36: an operation that is held changes nothing, and one that runs moves `SEQ` as R41 says. -/
theorem sequencerTransitions : Obligations.SequencerTransitions := by
  unfold Obligations.SequencerTransitions
  intro i s t h hne
  rcases exec_next h with rfl | hran
  · exact absurd rfl hne
  · exact hran.seq_cases.resolve_left hne

/-! ### `FAULT` (R42) -/

/-- Only a failing INIT raises a fault, and it raises one bit (R187, R200). -/
theorem Ran.fault_cases {i : Instr} {s t : State} (h : Ran i s t) :
    t.fault = s.fault ∨ ∃ c : Cause, t.fault = s.fault ||| c.bit := by
  cases h with
  | @initFaults _ _ _ c _ _ => exact .inr ⟨c, rfl⟩
  | initPasses _ hc => exact .inl (by rw [initialized_of_none hc])
  | capt _ => exact .inl (by rw [captured_eq])
  | play _ =>
    obtain ⟨_, _, _, _, _, _, -, -, -, heq⟩ := played_frame s
    exact .inl (by rw [heq])
  | _ => exact .inl (by simp)

/-- A bit that is set stays set when further bits are. -/
theorem fault_and_or_self (x y : BitVec 5) : x &&& (x ||| y) = x := by
  ext i
  simpa using Or.inl

theorem exec_fault_sticky {i : Instr} {s t : State} (h : exec i s = .next t) :
    s.fault &&& t.fault = s.fault := by
  rcases exec_next h with rfl | hran
  · exact BitVec.and_self
  · rcases hran.fault_cases with heq | ⟨c, heq⟩ <;> rw [heq]
    · exact BitVec.and_self
    · exact fault_and_or_self _ _

/-- Settles O42: a step but RESET is held, carries out an operation, or records an illegal host word. -/
theorem faultBitsAreSticky : Obligations.FaultBitsAreSticky := by
  unfold Obligations.FaultBitsAreSticky
  intro s t hreset h
  cases hi : s.env.inner with
  | some w =>
    rw [step_of_inner hi] at h
    obtain ⟨i, -, hexec⟩ := stepInner_next h
    simpa using exec_fault_sticky hexec
  | none =>
    obtain ⟨e, -, rfl | ⟨i, -, hexec⟩ | ⟨-, -, w, -, rfl⟩ | ⟨hturn, -⟩⟩ := step_next hi h
    · exact BitVec.and_self
    · simpa using exec_fault_sticky hexec
    · exact fault_and_or_self _ _
    · exact absurd hturn (hreset hi)

/-! ### Who writes which register (R21 to R42) -/

/-- Settles O45: each operation that runs is looked up among the writers of every register. -/
theorem registersHaveOnlyTheirWriters : Obligations.RegistersHaveOnlyTheirWriters := by
  unfold Obligations.RegistersHaveOnlyTheirWriters
  intro i s t h
  rcases exec_next h with rfl | hran
  · simp
  · cases hran with
    | initPasses _ hc => rw [initialized_of_none hc]; simp [Instr.op]
    | capt _ => rw [captured_eq]; simp [Instr.op]
    | play _ =>
      obtain ⟨_, _, _, _, _, _, -, hhrsp, -, heq⟩ := played_frame s
      rw [heq]; simp [Instr.op, hhrsp]
    | _ => simp [Instr.op]

/-! ### The six relations (R44) -/

/-- Settles O49: every enable and `INITED` are clear after reset, and the history is empty. -/
theorem relationsHoldAtReset : Obligations.RelationsHoldAtReset := by
  unfold Obligations.RelationsHoldAtReset
  intro p d x
  refine ⟨⟨⟨?enables, nofun, ?quiet, Nat.le_refl 0, ?chain, rfl⟩, ?before, nofun, rfl⟩, fun _ => rfl⟩
  case enables => exact ⟨rfl, rfl, rfl, rfl, rfl, rfl⟩
  case quiet => exact fun _ => ⟨rfl, rfl, rfl, rfl, rfl, rfl⟩
  case chain => simp [ServiceChain, State.resetWith]
  case before => exact fun _ => ⟨rfl, rfl, rfl, rfl, rfl⟩

/-! #### The configuration: R44 items 1 and 2, and what it is before INIT -/

/-- The registers that make up the configuration of a session, and the parameters, are the same in both states. -/
structure SameConfig (s t : State) : Prop where
  reload : t.reload = s.reload
  tmrEn : t.tmrEn = s.tmrEn
  adcEn : t.adcEn = s.adcEn
  adcRef : t.adcRef = s.adcRef
  chan : t.chan = s.chan
  adcAte : t.adcAte = s.adcAte
  adcIe : t.adcIe = s.adcIe
  pinIn : t.pinIn = s.pinIn
  dinDis : t.dinDis = s.dinDis
  modem : t.modem = s.modem
  inited : t.inited = s.inited
  outEn : t.outEn = s.outEn
  params : t.params = s.params

/-- Apart from CFGCLK and CFGADC alone, only a passing INIT changes the configuration (R191). -/
theorem Ran.config_cases {i : Instr} {s t : State} (h : Ran i s t) (hi : i.op ∉ [Op.cfgclk, .cfgadc]) :
    SameConfig s t ∨ ∃ ch hd, initCause ch hd s = none ∧ t = initialized ch hd s := by
  cases h with
  | cfgclk | cfgadc => simp [Instr.op] at hi
  | initPasses _ hc => exact .inr ⟨_, _, hc, rfl⟩
  | capt _ => exact .inl (by rw [captured_eq]; constructor <;> rfl)
  | play _ =>
    obtain ⟨_, _, _, _, _, _, -, -, -, heq⟩ := played_frame s
    exact .inl (by rw [heq]; constructor <;> rfl)
  | _ => exact .inl (by constructor <;> simp)

/-- The service of a tick as the registers show it: the chain of R44 item 5, and a set `TICKF` belongs to it. -/
abbrev ServiceKept (s : State) : Prop :=
  ServiceChain s ∧ (s.tickf = true → s.adcBusy = true ∨ s.adcf = true ∨ s.seq = 1#2)

/-- With the configuration kept, the relations that speak of other registers remain to be shown. -/
theorem BlockInv.of_sameConfig {s t : State} (h : BlockInv s) (hc : SameConfig s t) (hquiet : QuietBeforeInit t)
    (hbound : CounterBounded t) (hservice : ServiceKept t) (hlow : OutLowBitsZero t)
    (hinner : t.env.inner = none) : BlockInv t := by
  obtain ⟨⟨hen, hses, -⟩, hbefore, -⟩ := h
  obtain ⟨hchain, htick⟩ := hservice
  refine ⟨⟨?enables, ?session, hquiet, hbound, hchain, hlow⟩, ?before, htick, hinner⟩
  case enables =>
    simpa [EnablesTogether, hc.tmrEn, hc.adcEn, hc.adcAte, hc.adcIe, hc.adcRef, hc.outEn, hc.inited] using hen
  case session =>
    simpa [SessionConfigured, hc.inited, hc.modem, hc.chan, hc.params, hc.reload, hc.pinIn, hc.dinDis] using hses
  case before => simpa [hc.inited, hc.reload, hc.chan, hc.pinIn, hc.dinDis, hc.modem] using hbefore

/-- A passing INIT starts a session with the counter at 0, or repeats the one there is (R187, R188). -/
theorem BlockInv.of_initPasses {ch : Channel} {hd : Handle} {s : State} (h : BlockInv s)
    (hc : initCause ch hd s = none) : BlockInv (initialized ch hd s) := by
  rw [initialized_of_none hc]
  obtain ⟨⟨-, hses, -, -, hchain, hlow⟩, hbefore, htick, hinner⟩ := h
  obtain ⟨hmodem, hchan, hfits, hsame⟩ := initCause_eq_none.mp hc
  have hpins : s.pinIn ||| chanBit ch = chanBit ch ∧ s.dinDis ||| chanBit ch = chanBit ch := by
    cases hs : s.inited with
    | false =>
      obtain ⟨-, -, hpin, hdis, -⟩ := hbefore hs
      simp [hpin, hdis]
    | true =>
      obtain ⟨-, -, -, hpin, hdis⟩ := hses hs
      simp [hpin, hdis, chanBit, (hsame hs).1]
  obtain ⟨hpin, hdis⟩ := hpins
  refine ⟨⟨?enables, ?session, nofun, Nat.zero_le _, hchain, hlow⟩, nofun, htick, hinner⟩
  case enables => exact ⟨rfl, rfl, rfl, rfl, rfl, rfl⟩
  case session => exact fun _ => ⟨hmodem, hchan, toNat_reloadWord hfits, hpin, hdis⟩

/-! #### The other registers: R44 items 3 to 6 -/

/-- Before INIT only the host port has anything to do: no guard of another agent holds (R44 item 3). -/
theorem Ran.quietBeforeInit {i : Instr} {s t : State} (h : Ran i s t) (hen : EnablesTogether s)
    (hquiet : QuietBeforeInit s) (hs : s.inited = false) (hi : i.op ≠ .wrout) : QuietBeforeInit t := by
  obtain ⟨htmr, hadc, -⟩ := hen
  obtain ⟨hcnt, htickf, hbusy, hadcf, hseq, hout⟩ := hquiet hs
  cases h with
  | wrout => exact absurd rfl hi
  | initPasses _ hc => rw [initialized_of_none hc]; nofun
  | clkCounts hrun | clkTicks hrun => simp [htmr, hs] at hrun
  | conv hb => simp [hbusy] at hb
  | disp hf => simp [hadcf] at hf
  | ack hq | capt hq | play hq => simp [hseq] at hq
  | _ => simp [QuietBeforeInit, hcnt, htickf, hbusy, hadcf, hseq, hout, hadc, hs]

/-- `CNT` restarts where `RELOAD` is written, and wraps where it meets it (R44 item 4). -/
theorem Ran.counterBounded {i : Instr} {s t : State} (h : Ran i s t) (hb : CounterBounded s) :
    CounterBounded t := by
  cases h with
  | cfgclk | clkTicks => simp [CounterBounded]
  | initPasses _ hc => rw [initialized_of_none hc]; exact Nat.zero_le _
  | clkCounts _ hne =>
    show (s.cnt + 1#16).toNat ≤ s.reload.toNat
    bv_omega
  | play _ =>
    obtain ⟨_, _, _, _, _, _, -, -, -, heq⟩ := played_frame s
    rw [heq]; exact hb
  | capt _ => rw [captured_eq]; exact hb
  | _ => simpa [CounterBounded] using hb

/-- Apart from WROUT alone, only PLAY writes `OUT`, and it writes the low bits zero (R44 item 6). -/
theorem Ran.outLowBitsZero {i : Instr} {s t : State} (h : Ran i s t) (hl : OutLowBitsZero s)
    (hi : i.op ≠ .wrout) : OutLowBitsZero t := by
  cases h with
  | wrout => exact absurd rfl hi
  | initPasses _ hc => rw [initialized_of_none hc]; exact hl
  | play _ =>
    obtain ⟨_, _, _, _, _, _, hlow, -, -, heq⟩ := played_frame s
    rw [heq]; exact hlow
  | capt _ => rw [captured_eq]; exact hl
  | _ => simpa [OutLowBitsZero] using hl

/-- Each operation of the service hands on to the next, and a tick finds none under way (R44 item 5). -/
theorem Ran.serviceKept {i : Instr} {s t : State} (h : Ran i s t) (hen : EnablesTogether s)
    (hk : ServiceKept s) (hi : i.op ≠ .trig) : ServiceKept t := by
  have ⟨⟨hbusy, hadcf, _, hacked⟩, _⟩ := hk
  cases h with
  | trig => exact absurd rfl hi
  | initPasses _ hc => rw [initialized_of_none hc]; exact hk
  | clkTicks hrun _ ho =>
    obtain ⟨htmr, hadc, hate, -⟩ := hen
    simp only [serviceOpen, Bool.or_eq_false_iff, bne_eq_false_iff_eq] at ho
    obtain ⟨⟨⟨-, -⟩, hf⟩, hq⟩ := ho
    simp [ServiceKept, ServiceChain, hadc, hate, ← htmr, hrun, hf, hq]
  | conv hb =>
    obtain ⟨ht, -, hq⟩ := hbusy hb
    simp [ServiceKept, ServiceChain, ht, hq]
  | disp hf =>
    obtain ⟨ht, hb, -⟩ := hadcf hf
    simp [ServiceKept, ServiceChain, ht, hb]
  | ack hq =>
    have hb : s.adcBusy = false := by simpa [hq] using hbusy
    have hf : s.adcf = false := by simpa [hq] using hadcf
    simp [ServiceKept, ServiceChain, hb, hf]
  | capt hq =>
    obtain ⟨ht, hb, hf⟩ := hacked (.inl hq)
    rw [captured_eq]
    simp [ServiceKept, ServiceChain, ht, hb, hf]
  | play hq =>
    obtain ⟨ht, hb, hf⟩ := hacked (.inr hq)
    obtain ⟨_, _, _, _, _, _, -, -, -, heq⟩ := played_frame s
    rw [heq]
    simp [ServiceKept, ServiceChain, ht, hb, hf]
  | _ => exact hk

/-! #### The step -/

/-- Every operation that runs keeps the relations, but for the four that the spec issues only inside INIT, PLAY
and CLK, which alone would break them. -/
theorem Ran.blockInv {i : Instr} {s t : State} (h : Ran i s t) (hinv : BlockInv s)
    (hi : i.op ∉ [Op.cfgclk, .cfgadc, .wrout, .trig]) : BlockInv t := by
  have ⟨⟨hen, _, hquiet, hbound, hchain, hlow⟩, _, htick, hinner⟩ := hinv
  simp only [List.mem_cons, List.not_mem_nil, or_false, not_or] at hi
  obtain ⟨hclk, hadc, hout, htrig⟩ := hi
  rcases h.config_cases (by simp [hclk, hadc]) with hcfg | ⟨ch, hd, hc, rfl⟩
  · exact hinv.of_sameConfig hcfg
      (fun ht => h.quietBeforeInit hen hquiet (hcfg.inited.symm.trans ht) hout ht)
      (h.counterBounded hbound) (h.serviceKept hen ⟨hchain, htick⟩ htrig) (h.outLowBitsZero hlow hout)
      (h.inner_eq.trans hinner)
  · exact hinv.of_initPasses hc

/-- Of the environment the relations read the inner slot only. -/
theorem BlockInv.withEnv {s : State} (h : BlockInv s) {e : Env} (he : e.inner = none) :
    BlockInv { s with env := e } := by
  obtain ⟨hrel, hbefore, htick, -⟩ := h
  exact ⟨hrel, hbefore, htick, he⟩

/-- RESET has the relations, with the environment's inputs kept (R45, R230). -/
theorem resetLine_blockInv {s : State} (h : s.env.inner = none) : BlockInv (resetLine s) :=
  (relationsHoldAtReset _ _ _).1.withEnv h

/-- A turn brings no operation that the spec issues only inside another one (R81). -/
theorem op_of_offer {t : Turn} {s : State} {i : Instr} (h : offer t s = .op i) :
    i.op ∉ [Op.cfgclk, .cfgadc, .wrout, .trig] := by
  have hhost : i.op.cls = .host → i.op ∉ [Op.cfgclk, .cfgadc, .wrout, .trig] := by
    cases i.op <;> decide
  rcases offer_op h with ⟨-, rfl⟩ | ⟨-, -, rfl⟩ | ⟨-, -, -, -, rfl⟩ | ⟨-, -, rfl⟩ | ⟨-, -, rfl⟩ | ⟨-, -, rfl⟩ |
    ⟨-, -, hcls⟩
  case inr.inr.inr.inr.inr.inr => exact hhost hcls
  all_goals simp [Instr.op]

/-- Settles O48: a step is held, carries out what its turn brings, records an illegal word (`HIST` and `FAULT`,
which the relations do not read), or is RESET. -/
theorem relationsKeptByEveryStep : Obligations.RelationsKeptByEveryStep := by
  unfold Obligations.RelationsKeptByEveryStep
  intro s t h hstep
  obtain ⟨e, he, rfl | ⟨i, hoffer, hexec⟩ | ⟨-, -, w, -, rfl⟩ | ⟨-, rfl⟩⟩ := step_next h.2.2.2 hstep
  · exact h.withEnv he
  · rcases exec_next hexec with rfl | hran
    · exact h.withEnv he
    · exact hran.blockInv (h.withEnv he) (op_of_offer hoffer)
  · exact h.withEnv he
  · exact resetLine_blockInv he

end Sys2Proof.Machine

/-! The statements of 20_memory: the event history and its order (R70, R72), the modem's flag writes (R67), the
host port during an invocation (R64), and that in a fair run every tick is served (R72, R129, R146). -/

namespace Sys2Proof.Machine

/-! ### The host port during an invocation (R64, U9) -/

theorem stepTurn_foreground_held {s : State} (h : s.seq ≠ 0#2) : stepTurn .foreground s = .next s := by
  have hclosed : ¬ hrdy s = true := by rwa [hrdy_iff]
  have ho : offer .foreground s = .held := if_neg hclosed
  have he : offerEnv .foreground s = s.env := if_neg hclosed
  rw [stepTurn, ho, he, runOffer]

/-- Settles O10: with `SEQ` ≠ 0 the host port is closed, so the turn holds the FOREGROUND. -/
theorem hostHeldDuringInvocation : Obligations.HostHeldDuringInvocation := by
  unfold Obligations.HostHeldDuringInvocation
  intro s rest hi ha hs
  rw [step_of_agenda hi ha]
  exact stepTurn_foreground_held hs

/-! ### The flag writes of an answer (R67) -/

/-- A write with no later write of its flag decides the flag. -/
theorem writesTo_last {f : FlagWrite} {b : Bool} {l₁ l₂ : List FlagWrite} (h : ∀ g ∈ l₂, g.flag ≠ f.flag) :
    writesTo f.flag b (l₁ ++ f :: l₂) = f.value := by
  rw [writesTo_append, writesTo, if_pos rfl, writesTo_of_no_write h]

theorem newinAnswer_of_cons {e : Env} {fw : List FlagWrite} {rest : List (List FlagWrite)}
    (h : e.newins = fw :: rest) (hist : List Word) (hd : Handle) (x : Int) :
    e.newinAnswer hist hd x = fw := by
  rw [Env.newinAnswer, h]

/-- CAPT with a queued answer applies its writes to both flags (R126). -/
theorem captured_flags {s : State} {fw : List FlagWrite} {rest : List (List FlagWrite)}
    (h : s.env.newins = fw :: rest) :
    (captured s).txen = writesTo .txen s.txen fw ∧ (captured s).key = writesTo .key s.key fw := by
  simp [captured_eq, newinAnswer_of_cons h]

/-- Settles O31: CAPT applies the queued list in order, and the writes after the last one of a flag leave it. -/
theorem lastFlagWriteWins : Obligations.LastFlagWriteWins := by
  unfold Obligations.LastFlagWriteWins
  intro s l₁ l₂ f rest hs hq hlast
  obtain ⟨htxen, hkey⟩ := captured_flags hq
  refine ⟨captured s, guarded_of_true _ s (by simpa using hs), fun hf => ?_, fun hf => ?_⟩
  · rw [htxen, ← hf, writesTo_last hlast]
  · rw [hkey, ← hf, writesTo_last hlast]

/-! ### The words an operation records (R70) -/

@[simp] theorem captured_hist (s : State) :
    (captured s).hist =
      s.hist ++ [encode .capt, encode .rdin, encode (.newin s.modem (recenter (s.adcData.setWidth 16)))] := by
  rw [captured_eq]

/-- PLAY records at most one REQOUT, and one WROUT (R142). -/
theorem played_hist (s : State) :
    ∃ v, (played s).hist = s.hist ++ [encode .play, encode (.wrout v)] ∨
      (played s).hist = s.hist ++ [encode .play, encode (.reqout s.modem), encode (.wrout v)] := by
  cases h : s.txen with
  | false => exact ⟨_, .inl (by rw [played_idle s h])⟩
  | true => exact ⟨_, .inr (by rw [played_modulating s h]; exact List.append_assoc _ _ _)⟩

/-- An operation that runs appends to the history and leaves what stands there (R70). -/
theorem Ran.hist_prefix {i : Instr} {s t : State} (h : Ran i s t) : s.hist <+: t.hist := by
  cases h with
  | initPasses _ hc => rw [initialized_of_none hc]; exact List.prefix_append _ _
  | capt _ => rw [captured_hist]; exact List.prefix_append _ _
  | play _ =>
    obtain ⟨v, heq | heq⟩ := played_hist s <;> rw [heq] <;> exact List.prefix_append _ _
  | trig => rw [trigger_eq]; dsimp only; split <;> simp
  | clkTicks => rw [trigger_eq]; dsimp only; split <;> simp
  | _ => simp

theorem exec_hist_prefix {i : Instr} {s t : State} (h : exec i s = .next t) : s.hist <+: t.hist := by
  rcases exec_next h with rfl | hran
  · exact List.prefix_rfl
  · exact hran.hist_prefix

/-- Settles O46: a step but RESET is held, carries out an operation, or records an illegal host word. -/
theorem historyOnlyGrows : Obligations.HistoryOnlyGrows := by
  unfold Obligations.HistoryOnlyGrows
  intro s t hreset h
  cases hi : s.env.inner with
  | some w =>
    rw [step_of_inner hi] at h
    obtain ⟨i, -, hexec⟩ := stepInner_next h
    simpa using exec_hist_prefix hexec
  | none =>
    obtain ⟨e, -, rfl | ⟨i, -, hexec⟩ | ⟨-, -, w, -, rfl⟩ | ⟨hturn, -⟩⟩ := step_next hi h
    · exact List.prefix_rfl
    · simpa using exec_hist_prefix hexec
    · exact List.prefix_append _ _
    · exact absurd hturn (hreset hi)

/-! ### Reading the history (R72, R175) -/

@[simp] theorem readFrom_nil (p : Phase) : readFrom p [] = some p := rfl

@[simp] theorem readFrom_cons (p : Phase) (w : Word) (rest : List Word) :
    readFrom p (w :: rest) = (p.read w).bind (readFrom · rest) := by
  rw [readFrom]; cases p.read w <;> rfl

/-- A history is read word for word, so what follows is read from the phase reached. -/
theorem readFrom_append (p : Phase) (l₁ l₂ : List Word) :
    readFrom p (l₁ ++ l₂) = (readFrom p l₁).bind (readFrom · l₂) := by
  induction l₁ generalizing p with
  | nil => rfl
  | cons w rest ih => simp only [List.cons_append, readFrom_cons, Option.bind_assoc, ih]

/-- A CLK word may stand between any two steps. -/
theorem Phase.read_clk {p : Phase} (h : p.between = true) : p.read (encode .clk) = some p := by
  simp [Phase.read, opField_encode, Instr.op, h]

/-- A host command, and what INIT issues, may stand outside an invocation. -/
theorem Phase.read_foreground {p : Phase} {i : Instr} (hp : p.foreground = true)
    (hi : i.op.cls = .host ∨ i.op = .cfgclk ∨ i.op = .cfgadc) : p.read (encode i) = some p := by
  cases i <;> simp [Instr.op, Op.cls] at hi <;> simp [Phase.read, opField_encode, Instr.op, hp]

/-! The words of a service, each in its phase (R129, R146, R175). -/

@[simp] theorem Phase.idle_read_trig : Phase.idle.read (encode .trig) = some .triggered := by
  simp [Phase.read, opField_encode, Instr.op]
@[simp] theorem Phase.triggered_read_conv (r : Raw) :
    Phase.triggered.read (encode (.conv r)) = some .converted := by simp [Phase.read, opField_encode, Instr.op]
@[simp] theorem Phase.converted_read_disp : Phase.converted.read (encode .disp) = some .entered := by
  simp [Phase.read, opField_encode, Instr.op]
@[simp] theorem Phase.entered_read_ack : Phase.entered.read (encode .ack) = some .acked := by
  simp [Phase.read, opField_encode, Instr.op]
@[simp] theorem Phase.acked_read_capt : Phase.acked.read (encode .capt) = some .capturing := by
  simp [Phase.read, opField_encode, Instr.op]
@[simp] theorem Phase.capturing_read_rdin : Phase.capturing.read (encode .rdin) = some .reading := by
  simp [Phase.read, opField_encode, Instr.op]
@[simp] theorem Phase.reading_read_newin (hd : Handle) (x : Int) :
    Phase.reading.read (encode (.newin hd x)) = some .delivered := by simp [Phase.read, opField_encode, Instr.op]
@[simp] theorem Phase.delivered_read_play : Phase.delivered.read (encode .play) = some .playing := by
  simp [Phase.read, opField_encode, Instr.op]
@[simp] theorem Phase.playing_read_reqout (hd : Handle) :
    Phase.playing.read (encode (.reqout hd)) = some .asked := by simp [Phase.read, opField_encode, Instr.op]
@[simp] theorem Phase.playing_read_wrout (v : Byte) : Phase.playing.read (encode (.wrout v)) = some .idle := by
  simp [Phase.read, opField_encode, Instr.op]
@[simp] theorem Phase.asked_read_wrout (v : Byte) : Phase.asked.read (encode (.wrout v)) = some .idle := by
  simp [Phase.read, opField_encode, Instr.op]

/-! ### The phase the registers show -/

theorem phaseOf_of_busy {s : State} (h : s.adcBusy = true) : phaseOf s = .triggered := if_pos h

theorem phaseOf_of_adcf {s : State} (hb : s.adcBusy = false) (hf : s.adcf = true) : phaseOf s = .converted := by
  simp [phaseOf, hb, hf]

/-! With no conversion in flight and no request pending, `SEQ` alone shows the phase. -/

theorem phaseOf_of_seq_zero {s : State} (hq : s.adcBusy = false ∧ s.adcf = false) (hs : s.seq = 0#2) :
    phaseOf s = .idle := by simp [phaseOf, hq, hs]

theorem phaseOf_of_seq_one {s : State} (hq : s.adcBusy = false ∧ s.adcf = false) (hs : s.seq = 1#2) :
    phaseOf s = .entered := by simp [phaseOf, hq, hs]

theorem phaseOf_of_seq_two {s : State} (hq : s.adcBusy = false ∧ s.adcf = false) (hs : s.seq = 2#2) :
    phaseOf s = .acked := by simp [phaseOf, hq, hs]

theorem phaseOf_of_seq_three {s : State} (hq : s.adcBusy = false ∧ s.adcf = false) (hs : s.seq = 3#2) :
    phaseOf s = .delivered := by simp [phaseOf, hq, hs]

theorem phaseOf_between (s : State) : (phaseOf s).between = true := by
  unfold phaseOf; split_ifs <;> rfl

theorem phaseOf_foreground {s : State} (h : s.seq = 0#2) : (phaseOf s).foreground = true := by
  simp only [phaseOf, h, BitVec.reduceEq, if_false]
  split_ifs <;> rfl

/-- No service is under way: the block waits for a tick. -/
theorem phaseOf_of_closed {s : State} (h : serviceOpen s = false) : phaseOf s = .idle := by
  simp only [serviceOpen, Bool.or_eq_false_iff, bne_eq_false_iff_eq] at h
  obtain ⟨⟨⟨-, hb⟩, hf⟩, hq⟩ := h
  exact phaseOf_of_seq_zero ⟨hb, hf⟩ hq

/-- Inside an invocation the chain of R44 item 5 leaves no conversion in flight and no request pending. -/
theorem ServiceChain.quiet_of_seq {s : State} (h : ServiceChain s) (hs : s.seq ≠ 0#2) :
    s.adcBusy = false ∧ s.adcf = false := by
  obtain ⟨hbusy, hadcf, -⟩ := h
  constructor
  · simpa [hs] using hbusy
  · simpa [hs] using hadcf

/-! ### What a step adds to the history is read from the phase before it to the phase after it -/

/-- The history of `t` goes on from that of `s`, and its new words lead from the phase of `s` to that of `t`. -/
def ReadsOn (s t : State) : Prop :=
  ∃ ws, t.hist = s.hist ++ ws ∧ readFrom (phaseOf s) ws = some (phaseOf t)

theorem ReadsOn.refl (s : State) : ReadsOn s s := ⟨[], by simp, rfl⟩

/-- An order kept so far is kept on, since a bit of `FAULT` that is clear now was clear before (R42). -/
theorem Ordered.of_readsOn {s t : State} (h : Ordered s) (hon : ReadsOn s t)
    (hfault : s.fault &&& t.fault = s.fault) : Ordered t := by
  intro hclear
  obtain ⟨ws, hhist, hread⟩ := hon
  have hbefore : s.fault.getLsbD 4 = false := by
    rw [← hfault, BitVec.getLsbD_and, hclear, Bool.and_false]
  rw [hhist, readFrom_append, h hbefore]
  exact hread

theorem ReadsOn.of_word {s t : State} {w : Word} (hhist : t.hist = s.hist ++ [w])
    (hread : (phaseOf s).read w = some (phaseOf t)) : ReadsOn s t :=
  ⟨[w], hhist, by rw [readFrom_cons, hread]; rfl⟩

theorem ReadsOn.of_phases {s t : State} {ws : List Word} {p q : Phase} (hp : phaseOf s = p) (hq : phaseOf t = q)
    (hhist : t.hist = s.hist ++ ws) (hread : readFrom p ws = some q) : ReadsOn s t :=
  ⟨ws, hhist, by rw [hp, hq]; exact hread⟩

/-- A turn brings no operation that the spec issues only inside INIT, CAPT or PLAY (R81). -/
theorem cls_of_offer {t : Turn} {s : State} {i : Instr} (h : offer t s = .op i) :
    i.op.cls ∉ [OpClass.primitive, .modem] := by
  rcases offer_op h with ⟨-, rfl⟩ | ⟨-, -, rfl⟩ | ⟨-, -, -, -, rfl⟩ | ⟨-, -, rfl⟩ | ⟨-, -, rfl⟩ | ⟨-, -, rfl⟩ |
    ⟨-, -, hcls⟩
  case inr.inr.inr.inr.inr.inr => simp [hcls]
  all_goals simp [Instr.op, Op.cls]

/-- An operation that a turn brings moves the service of the tick by its own words, or not at all (R175). -/
theorem Ran.readsOn {i : Instr} {s t : State} (h : Ran i s t) (hinv : BlockInv s)
    (hcls : i.op.cls ∉ [OpClass.primitive, .modem]) (htrig : i.op ≠ .trig) : ReadsOn s t := by
  obtain ⟨⟨hen, -, -, -, hchain, -⟩, -⟩ := hinv
  cases h with
  | cfgclk | cfgadc | wrout | rdin | newin | reqout => simp [Instr.op, Op.cls] at hcls
  | trig => exact absurd rfl htrig
  | initFaults hs | stxe hs | skey hs | ltxe hs | lkey hs =>
    exact .of_word rfl (Phase.read_foreground (phaseOf_foreground hs) (.inl rfl))
  | clkStopped | clkCounts => exact .of_word rfl (Phase.read_clk (phaseOf_between s))
  | @initPasses ch hd _ hs hc =>
    have hread (i : Instr) := Phase.read_foreground (i := i) (phaseOf_foreground hs)
    have hphase : phaseOf (initialized ch hd s) = phaseOf s := by rw [initialized_of_none hc]; rfl
    refine .of_phases rfl hphase (by rw [initialized_of_none hc]) ?_
    simp [hread, Instr.op, Op.cls]
  | clkTicks hrun _ ho =>
    obtain ⟨htmr, hadc, hate, -⟩ := hen
    have hon : s.adcEn = true ∧ s.adcAte = true := by simp [hadc, hate, ← htmr, hrun]
    refine .of_phases (phaseOf_of_closed ho) (phaseOf_of_busy (by simp [trigger_eq, hon]))
      (ws := [encode .clk, encode .trig]) (by simp [trigger_eq, hon]) ?_
    simp [Phase.read_clk (p := .idle) rfl]
  | conv hb =>
    exact .of_phases (phaseOf_of_busy hb) (phaseOf_of_adcf rfl rfl) rfl (by simp)
  | disp hf _ hs =>
    obtain ⟨-, hadcf, -⟩ := hchain
    obtain ⟨-, hb, -⟩ := hadcf hf
    exact .of_phases (phaseOf_of_adcf hb hf) (phaseOf_of_seq_one ⟨hb, rfl⟩ rfl) rfl (by simp)
  | ack hs =>
    have hq := hchain.quiet_of_seq (by simp [hs])
    exact .of_phases (phaseOf_of_seq_one hq hs) (phaseOf_of_seq_two hq rfl) rfl (by simp)
  | capt hs =>
    have hq := hchain.quiet_of_seq (by simp [hs])
    have hafter : phaseOf (captured s) = .delivered := by rw [captured_eq]; exact phaseOf_of_seq_three hq rfl
    exact .of_phases (phaseOf_of_seq_two hq hs) hafter (captured_hist s) (by simp)
  | play hs =>
    have hq := hchain.quiet_of_seq (by simp [hs])
    have hafter : phaseOf (played s) = .idle := by
      obtain ⟨_, _, _, _, _, _, -, -, -, heq⟩ := played_frame s
      rw [heq]; exact phaseOf_of_seq_zero hq rfl
    obtain ⟨v, heq | heq⟩ := played_hist s
    all_goals exact .of_phases (phaseOf_of_seq_three hq hs) hafter heq (by simp)

/-- Settles O50: a step is held, reads on by the operation its turn brings, records an illegal word (so `ILL_CMD`
is set and nothing is claimed), or is RESET, after which the history is empty. -/
theorem historyKeepsServiceOrder : Obligations.HistoryKeepsServiceOrder := by
  unfold Obligations.HistoryKeepsServiceOrder
  intro s t hinv hord hstep
  have ⟨_, _, _, hinner⟩ := hinv
  obtain ⟨e, he, rfl | ⟨i, hoffer, hexec⟩ | ⟨-, -, w, -, rfl⟩ | ⟨-, rfl⟩⟩ := step_next hinner hstep
  · exact hord
  · have hordE : Ordered { s with env := e } := hord
    refine hordE.of_readsOn ?_ (exec_fault_sticky hexec)
    rcases exec_next hexec with rfl | hran
    · exact .refl _
    · exact hran.readsOn (hinv.withEnv he) (cls_of_offer hoffer) fun h => op_of_offer hoffer (by simp [h])
  · intro hclear
    simp [illegalCommand, Cause.bit, Cause.code] at hclear
  · exact fun _ => rfl

/-! ### A guard that only its own agent's turn makes false (R124, R171, R174) -/

@[simp] theorem FairOp.ready_conv (s : State) : FairOp.conv.ready s = s.adcBusy := rfl
@[simp] theorem FairOp.ready_disp (s : State) : FairOp.disp.ready s = dispReady s := rfl
@[simp] theorem FairOp.ready_ack (s : State) : FairOp.ack.ready s = (s.seq == 1#2) := rfl
@[simp] theorem FairOp.ready_capt (s : State) : FairOp.capt.ready s = (s.seq == 2#2) := rfl
@[simp] theorem FairOp.ready_play (s : State) : FairOp.play.ready s = (s.seq == 3#2) := rfl

/-- Only CONV ends a conversion in flight (R124). -/
theorem Ran.adcBusy_kept {i : Instr} {s t : State} (h : Ran i s t) (hi : i.op ≠ .conv) (hb : s.adcBusy = true) :
    t.adcBusy = true := by
  cases h with
  | conv => exact absurd rfl hi
  | initPasses _ hc => rw [initialized_of_none hc]; exact hb
  | clkTicks | trig => simp [trigger_eq, hb]
  | capt _ => rw [captured_eq]; exact hb
  | play _ =>
    obtain ⟨_, _, _, _, _, _, -, -, -, heq⟩ := played_frame s
    rw [heq]; exact hb
  | _ => simpa using hb

/-- Only DISP consumes the request, and nothing but RESET disables it (R171). -/
theorem Ran.request_kept {i : Instr} {s t : State} (h : Ran i s t) (hi : i.op ≠ .disp)
    (hr : s.adcf = true ∧ s.adcIe = true) : t.adcf = true ∧ t.adcIe = true := by
  cases h with
  | disp => exact absurd rfl hi
  | initPasses _ hc => rw [initialized_of_none hc]; exact ⟨hr.1, rfl⟩
  | capt _ => rw [captured_eq]; exact hr
  | play _ =>
    obtain ⟨_, _, _, _, _, _, -, -, -, heq⟩ := played_frame s
    rw [heq]; exact hr
  | _ => simp [hr]

/-- Only the four operations of the DISPATCHER move `SEQ` (R41). -/
theorem Ran.seq_kept {i : Instr} {s t : State} (h : Ran i s t) (hi : i.op ∉ [Op.disp, .ack, .capt, .play]) :
    t.seq = s.seq := by
  rcases h.seq_cases with hseq | ⟨rfl, -⟩ | ⟨rfl, -⟩ | ⟨rfl, -⟩ | ⟨rfl, -⟩
  · exact hseq
  all_goals simp [Instr.op] at hi

/-- CONV comes in the CONVERTER's turn only, and what moves `SEQ` in the DISPATCHER's only (R9). -/
theorem agent_of_offer {t : Turn} {s : State} {i : Instr} (h : offer t s = .op i) :
    (i.op = .conv → t = .converter) ∧ (i.op ∈ [Op.disp, .ack, .capt, .play] → t = .dispatcher) := by
  have hhost : i.op.cls = .host → i.op ∉ [Op.conv, .disp, .ack, .capt, .play] := by
    cases i.op <;> decide
  rcases offer_op h with ⟨rfl, rfl⟩ | ⟨rfl, -, rfl⟩ | ⟨rfl, -, -, -, rfl⟩ | ⟨rfl, -, rfl⟩ | ⟨rfl, -, rfl⟩ |
    ⟨rfl, -, rfl⟩ | ⟨-, -, hcls⟩
  case inr.inr.inr.inr.inr.inr =>
    have hno := hhost hcls
    simp only [List.mem_cons, not_or] at hno
    simp [hno]
  all_goals simp [Instr.op]

/-- A guard of R124, R171 or R174 that holds stays true until a turn of its own agent, or RESET. -/
theorem StepsBy.ready_kept {o : FairOp} {t : Turn} {s s' : State} (h : StepsBy t s s') (ho : o.ready s = true)
    (ht : t ≠ o.agent) (hreset : t ≠ .resetLine) : o.ready s' = true := by
  obtain ⟨e₀, e, -, -, rfl | ⟨i, hoffer, hexec⟩ | ⟨-, -, w, -, rfl⟩ | ⟨hturn, -⟩⟩ := stepsBy_cases h
  · exact ho
  · rcases exec_next hexec with rfl | hran
    · exact ho
    · obtain ⟨hconv, hdisp⟩ := agent_of_offer hoffer
      cases o with
      | conv => exact hran.adcBusy_kept (fun hi => ht (hconv hi)) ho
      | disp =>
        have hseq := hran.seq_kept fun hi => ht (hdisp hi)
        obtain ⟨hrequest, hs⟩ := (dispReady_iff s).mp ho
        exact (dispReady_iff s').mpr
          ⟨hran.request_kept (fun hi => ht (hdisp (by simp [hi]))) hrequest, hseq.trans hs⟩
      | ack | capt | play =>
        have hseq := hran.seq_kept fun hi => ht (hdisp hi)
        simpa [hseq] using ho
  · exact ho
  · exact absurd hturn hreset

/-! ### What the agent's turn does when the guard holds -/

theorem stepTurn_conv_ready {s : State} (hb : s.adcBusy = true) :
    stepTurn .converter s = .next (converted s.env.raw { s with env := s.env.popRaw }) := by
  rw [stepTurn_converter_busy hb]
  exact guarded_of_true _ _ hb

theorem stepTurn_disp_ready {s : State} (hd : dispReady s = true) :
    stepTurn .dispatcher s = .next (enterDispatcher (record .disp s)) := by
  obtain ⟨hrequest, hs⟩ := (dispReady_iff s).mp hd
  rw [stepTurn_dispatcher, if_pos hs, if_pos hrequest]
  exact guarded_of_true (fun s => enterDispatcher (record .disp s)) s hd

theorem stepTurn_ack_ready {s : State} (hs : s.seq = 1#2) :
    stepTurn .dispatcher s = .next { record .ack s with tickf := false, seq := 2#2 } := by
  rw [stepTurn_dispatcher, if_neg (by simp [hs]), if_pos hs]
  exact guarded_of_true (fun s => { record .ack s with tickf := false, seq := 2#2 }) s (by simp [hs])

theorem stepTurn_capt_ready {s : State} (hs : s.seq = 2#2) : stepTurn .dispatcher s = .next (captured s) := by
  rw [stepTurn_dispatcher, if_neg (by simp [hs]), if_neg (by simp [hs]), if_pos hs]
  exact guarded_of_true _ s (by simp [hs])

theorem stepTurn_play_ready {s : State} (hs : s.seq = 3#2) : stepTurn .dispatcher s = .next (played s) := by
  rw [stepTurn_dispatcher, if_neg (by simp [hs]), if_neg (by simp [hs]), if_neg (by simp [hs])]
  exact guarded_of_true _ s (by simp [hs])

/-- A scheduled step is the turn of its agent, whatever the environment offers in it. -/
theorem StepsBy.turn {t : Turn} {s s' : State} (h : StepsBy t s s') :
    ∃ e, stepTurn t { s with env := e } = .next s' := by
  obtain ⟨e, hi, rfl, hstep⟩ := h
  exact ⟨e.popTurn, by rwa [step_of_turn hi] at hstep⟩

theorem StepsBy.adcf_of_conv {s s' : State} (h : StepsBy .converter s s') (hb : s.adcBusy = true) :
    s'.adcf = true := by
  obtain ⟨e, hturn⟩ := h.turn
  cases (stepTurn_conv_ready (s := { s with env := e }) hb).symm.trans hturn
  rfl

theorem StepsBy.seq_of_disp {s s' : State} (h : StepsBy .dispatcher s s') (hd : dispReady s = true) :
    s'.seq = 1#2 := by
  obtain ⟨e, hturn⟩ := h.turn
  cases (stepTurn_disp_ready (s := { s with env := e }) hd).symm.trans hturn
  rfl

theorem StepsBy.seq_of_ack {s s' : State} (h : StepsBy .dispatcher s s') (hs : s.seq = 1#2) : s'.seq = 2#2 := by
  obtain ⟨e, hturn⟩ := h.turn
  cases (stepTurn_ack_ready (s := { s with env := e }) hs).symm.trans hturn
  rfl

theorem StepsBy.seq_of_capt {s s' : State} (h : StepsBy .dispatcher s s') (hs : s.seq = 2#2) : s'.seq = 3#2 := by
  obtain ⟨e, hturn⟩ := h.turn
  cases (stepTurn_capt_ready (s := { s with env := e }) hs).symm.trans hturn
  rfl

theorem StepsBy.seq_of_play {s s' : State} (h : StepsBy .dispatcher s s') (hs : s.seq = 3#2) : s'.seq = 0#2 := by
  obtain ⟨e, hturn⟩ := h.turn
  cases (stepTurn_play_ready (s := { s with env := e }) hs).symm.trans hturn
  rfl

/-! ### Every tick is served (R72, R129, R146) -/

/-- A pending request belongs to a session, whose converter interrupt is enabled, and waits at `SEQ` = 0. -/
theorem BlockInv.dispReady_of_adcf {s : State} (h : BlockInv s) (hf : s.adcf = true) : dispReady s = true := by
  obtain ⟨⟨⟨-, -, -, hie, -⟩, -, hquiet, -, ⟨-, hadcf, -⟩, -⟩, -⟩ := h
  have hinited : s.inited = true := by
    by_contra hno
    obtain ⟨-, -, -, hclear, -⟩ := hquiet (by simpa using hno)
    simp [hf] at hclear
  obtain ⟨-, -, hs⟩ := hadcf hf
  exact (dispReady_iff s).mpr ⟨⟨hf, hie.trans hinited⟩, hs⟩

theorem Run.blockInv {σ : Nat → Turn} {r : Nat → State} (hr : Run σ r) (h0 : BlockInv (r 0)) (n : Nat) :
    BlockInv (r n) :=
  run_keeps (P := fun s => BlockInv s) hr h0 (fun _ _ he h => h.withEnv he) relationsKeptByEveryStep n

section
variable {σ : Nat → Turn} {r : Nat → State} {n : Nat}

/-- Without RESET, a guard that holds stays true up to the first turn of its agent, and that turn comes. -/
theorem FairRun.first_turn (hf : FairRun σ r) (hno : ∀ m, n ≤ m → σ m ≠ .resetLine) (o : FairOp)
    (hn : o.ready (r n) = true) :
    ∃ m, n ≤ m ∧ StepsBy o.agent (r m) (r (m + 1)) ∧ σ m = o.agent ∧
      ∀ j, n ≤ j → j ≤ m → o.ready (r j) = true := by
  have htaken : ∃ m, n ≤ m ∧ σ m = o.agent := by
    obtain ⟨m, hm, -, hreset | hagent⟩ := eventually_taken hf.2 o hn
      fun m _ ho ht hreset => (hf.1 m).ready_kept ho ht hreset
    · exact absurd hreset (hno m hm)
    · exact ⟨m, hm, hagent⟩
  obtain ⟨hle, hagent⟩ := Nat.find_spec htaken
  have hstep := hf.1 (Nat.find htaken)
  rw [hagent] at hstep
  refine ⟨Nat.find htaken, hle, hstep, hagent, fun j hnj => ?_⟩
  induction j, hnj using Nat.le_induction with
  | base => exact fun _ => hn
  | succ j hnj ih =>
    intro hj
    have hother : σ j ≠ o.agent := fun ht => Nat.find_min htaken hj ⟨hnj, ht⟩
    exact (hf.1 j).ready_kept (ih (Nat.le_of_lt hj)) hother (hno j hnj)

/-- Without RESET a tick leads to an invocation: the conversion completes, and DISP enters (R72, R129). -/
theorem FairRun.entered_of_tick (hf : FairRun σ r) (hno : ∀ m, n ≤ m → σ m ≠ .resetLine)
    (hinv : ∀ m, BlockInv (r m)) (htick : (r n).tickf = true) : ∃ m, n ≤ m ∧ (r m).seq = 1#2 := by
  have hpending : ∀ m, n ≤ m → (r m).adcf = true → ∃ m, n ≤ m ∧ (r m).seq = 1#2 := by
    intro m hm hadcf
    obtain ⟨k, hk, hstep, -, hready⟩ := hf.first_turn (fun j hj => hno j (hm.trans hj)) .disp
      ((hinv m).dispReady_of_adcf hadcf)
    exact ⟨k + 1, by omega, hstep.seq_of_disp (hready k hk le_rfl)⟩
  obtain ⟨-, -, hservice, -⟩ := hinv n
  rcases hservice htick with hbusy | hadcf | hseq
  · obtain ⟨m, hm, hstep, -, hready⟩ := hf.first_turn hno .conv hbusy
    exact hpending (m + 1) (by omega) (hstep.adcf_of_conv (hready m hm le_rfl))
  · exact hpending n le_rfl hadcf
  · exact ⟨n, le_rfl, hseq⟩

/-- Without RESET an invocation that was entered runs ACK, CAPT and PLAY, and waits for PLAY at `SEQ` = 3
(R174). -/
theorem FairRun.served_of_entered (hf : FairRun σ r) (hno : ∀ m, n ≤ m → σ m ≠ .resetLine)
    (hs : (r n).seq = 1#2) :
    ∃ k m, n ≤ k ∧ k < m ∧ (σ k = .dispatcher ∧ (r k).seq = 2#2 ∧ (r (k + 1)).seq = 3#2) ∧
      (σ m = .dispatcher ∧ (r m).seq = 3#2 ∧ (r (m + 1)).seq = 0#2) ∧
      ∀ j, k < j → j ≤ m → (r j).seq = 3#2 := by
  obtain ⟨a, ha, hack, -, hready⟩ := hf.first_turn hno .ack (by simp [hs])
  have hacked : (r (a + 1)).seq = 2#2 := hack.seq_of_ack (by simpa using hready a ha le_rfl)
  obtain ⟨k, hk, hcapt, hσk, hready⟩ := hf.first_turn (fun j hj => hno j (by omega)) .capt (n := a + 1)
    (by simp [hacked])
  have htwo : (r k).seq = 2#2 := by simpa using hready k hk le_rfl
  have hthree := hcapt.seq_of_capt htwo
  obtain ⟨m, hm, hplay, hσm, hready⟩ := hf.first_turn (fun j hj => hno j (by omega)) .play (n := k + 1)
    (by simp [hthree])
  have hwait : ∀ j, k < j → j ≤ m → (r j).seq = 3#2 := fun j hj hjm => by simpa using hready j hj hjm
  have hend : (r m).seq = 3#2 := hwait m hm le_rfl
  exact ⟨k, m, by omega, hm, ⟨hσk, htwo, hthree⟩, ⟨hσm, hend, hplay.seq_of_play hend⟩, hwait⟩

end

/-- Settles O54: without a RESET the tick leads to an invocation, and the invocation to its CAPT and PLAY. -/
theorem everyTickIsServed : Obligations.EveryTickIsServed := by
  unfold Obligations.EveryTickIsServed
  intro σ r n hf h0 htick
  refine or_iff_not_imp_left.mpr fun hnone => ?_
  have hno : ∀ m, n ≤ m → σ m ≠ .resetLine := fun m hm hreset => hnone ⟨m, hm, hreset⟩
  obtain ⟨e, he, hseq⟩ := hf.entered_of_tick hno (hf.1.blockInv h0) htick
  obtain ⟨k, m, hk, hserved⟩ := hf.served_of_entered (fun j hj => hno j (he.trans hj)) hseq
  exact ⟨k, m, he.trans hk, hserved⟩

end Sys2Proof.Machine

/-! The statements of 30_encoding: the rows of the opcode table (R84) name what the decoder answers, decoder and
encoder are inverse to each other (R80, R83, R95), reserved codes (R93), and who issues which class (R81, R92). -/

namespace Sys2Proof

/-! ### The row a word matches (R84, R85) -/

/-- A row's test fixes the `op` field and the must-be-zero bits of the other two. -/
theorem fields_of_match {op p : Byte} {h mh : Handle} {arg ma : Half}
    (hw : mkWord op h arg &&& mkWord 0xFF#8 mh ma = mkWord p 0#8 0#16) :
    op = p ∧ h &&& mh = 0#8 ∧ arg &&& ma = 0#16 := by
  simpa using (row_test op p h mh arg ma).symm.trans (beq_iff_eq.mpr hw)

/-- Every mask covers the whole `op` field, so a word has the code of the row it matches. -/
theorem opField_of_match {r : Row} (hr : r ∈ opcodeTable) {w : Word} (hw : w &&& r.mask = r.pattern) :
    opField w = opField r.pattern := by
  have hmask : ∀ r ∈ opcodeTable, opField r.mask = 0xFF#8 := by decide
  have hand : opField (w &&& r.mask) = opField w &&& opField r.mask := BitVec.extractLsb'_and
  rw [← hw, hand, hmask r hr]
  exact BitVec.and_allOnes.symm

/-- No word matches two rows. -/
theorem row_unique {a b : Row} (ha : a ∈ opcodeTable) (hb : b ∈ opcodeTable) {w : Word}
    (hwa : w &&& a.mask = a.pattern) (hwb : w &&& b.mask = b.pattern) : a = b := by
  have hcodes : ∀ a ∈ opcodeTable, ∀ b ∈ opcodeTable, opField a.pattern = opField b.pattern → a = b := by decide
  exact hcodes a ha b hb ((opField_of_match ha hwa).symm.trans (opField_of_match hb hwb))

theorem lookup_eq_some_iff {w : Word} {r : Row} :
    lookup w = some r ↔ r ∈ opcodeTable ∧ w &&& r.mask = r.pattern := by
  have sound : ∀ {r}, lookup w = some r → r ∈ opcodeTable ∧ w &&& r.mask = r.pattern := fun h =>
    ⟨List.mem_of_find?_eq_some h, by simpa using List.find?_some h⟩
  refine ⟨sound, fun ⟨hr, hw⟩ => ?_⟩
  cases hl : lookup w with
  | none => exact absurd (beq_iff_eq.mpr hw) (List.find?_eq_none.mp hl r hr)
  | some r' =>
    obtain ⟨hr', hw'⟩ := sound hl
    rw [row_unique hr' hr hw' hw]

/-- What the decoder answers when it answers an instruction (R84). -/
theorem decode_eq_ok_iff {w : Word} {i : Instr} :
    decode w = .ok i ↔ ∃ r ∈ opcodeTable, w &&& r.mask = r.pattern ∧ assemble r.op w = i := by
  simp only [← and_assoc, ← lookup_eq_some_iff, decode]
  cases lookup w with
  | none => simp only [reduceCtorEq, false_and, exists_false, iff_false]; split <;> nofun
  | some r => simp

@[simp] theorem op_assemble (o : Op) (w : Word) : (assemble o w).op = o := by
  cases o <;> rfl

/-- A word decodes to a row's operation exactly when it matches the row. -/
theorem decode_eq_assemble_iff {r : Row} (hr : r ∈ opcodeTable) {w : Word} :
    decode w = .ok (assemble r.op w) ↔ w &&& r.mask = r.pattern := by
  rw [decode_eq_ok_iff]
  refine ⟨fun ⟨r', hr', hw, he⟩ => ?_, fun hw => ⟨r, hr, hw, rfl⟩⟩
  have hops : ∀ a ∈ opcodeTable, ∀ b ∈ opcodeTable, a.op = b.op → a = b := by decide
  have hop : r'.op = r.op := by simpa using congrArg Instr.op he
  rwa [hops r' hr' r hr hop] at hw

/-! ### Decoding what was encoded (R83, R95) -/

/-- The word of every instruction matches the row of its own mnemonic. -/
theorem spelling (i : Instr) : Laws.Spelling.Statement i :=
  match i with
  | .init ch hd => Laws.Spelling.init ch hd
  | .stxe b => Laws.Spelling.stxe b
  | .skey b => Laws.Spelling.skey b
  | .ltxe => Laws.Spelling.ltxe
  | .lkey => Laws.Spelling.lkey
  | .cfgclk d => Laws.Spelling.cfgclk d
  | .cfgadc ch => Laws.Spelling.cfgadc ch
  | .wrout v => Laws.Spelling.wrout v
  | .rdin => Laws.Spelling.rdin
  | .ack => Laws.Spelling.ack
  | .capt => Laws.Spelling.capt
  | .play => Laws.Spelling.play
  | .newin hd x => Laws.Spelling.newin hd x
  | .reqout hd => Laws.Spelling.reqout hd
  | .clk => Laws.Spelling.clk
  | .trig => Laws.Spelling.trig
  | .conv raw => Laws.Spelling.conv raw
  | .disp => Laws.Spelling.disp

theorem sampleFits_iff (x : Int) : sampleFits x = true ↔ -32768 ≤ x ∧ x ≤ 32767 := by
  simp [sampleFits]

/-- A sample that fits 16 bits is read back from its two's-complement pattern (R11). -/
theorem toInt_tc16 {x : Int} (h : sampleFits x = true) : (tc16 x).toInt = x := by
  obtain ⟨hlo, hhi⟩ := (sampleFits_iff x).mp h
  exact BitVec.toInt_ofInt_eq_self (by decide) hlo (Int.lt_add_one_of_le hhi)

theorem flag_bit0 (b : Bool) : ((BitVec.ofBool b).setWidth 16).getLsbD 0 = b := by
  cases b <;> rfl

/-- The operand fields of an instruction's word hold its operands (R83). -/
theorem assemble_encode {i : Instr} (h : i.wf = true) : assemble i.op (encode i) = i := by
  cases i with
  | init | cfgadc | wrout | conv =>
    simp [Instr.op, assemble, encode, extract4_mkWord, extract8_mkWord, extract10_mkWord]
  | stxe | skey => simp only [Instr.op, assemble, encode, bit0_mkWord, flag_bit0]
  | cfgclk | reqout => simp [Instr.op, assemble, encode]
  | newin => simp [Instr.op, assemble, encode, toInt_tc16 h]
  | ltxe | lkey | rdin | ack | capt | play | clk | trig | disp => rfl

/-- Settles O1: the word matches the row of its mnemonic, whose operand fields hold the operands. -/
theorem decodeEncodeRoundTrip : Obligations.DecodeEncodeRoundTrip := by
  unfold Obligations.DecodeEncodeRoundTrip
  intro i hwf
  obtain ⟨r, hr, hop, hw⟩ := spelling i
  exact decode_eq_ok_iff.mpr ⟨r, hr, hw, hop ▸ assemble_encode hwf⟩

/-! ### Encoding what was decoded (R80, R85) -/

/-- With the bits above an operand zero, the operand widened to the `arg` field is the field. -/
theorem widen_narrow {n : Nat} {arg : Half} (h : arg &&& ~~~(BitVec.allOnes n).setWidth 16 = 0#16) :
    (arg.setWidth n).setWidth 16 = arg := by
  ext i hi
  have hbit : (arg &&& ~~~(BitVec.allOnes n).setWidth 16)[i] = false := by simp [h]
  by_cases hin : i < n
  · simp [hin, BitVec.getLsbD_eq_getElem hi]
  · simpa [hin, hi] using hbit

/-- The same for the one-bit operand of STXE and SKEY. -/
theorem widen_bit0 {arg : Half} (h : arg &&& 0xFFFE#16 = 0#16) :
    (BitVec.ofBool (arg.getLsbD 0)).setWidth 16 = arg := by
  rw [← BitVec.setWidth_one]
  exact widen_narrow h

/-- A field that must be zero in all its bits is zero. -/
theorem eq_zero_of_mask {n : Nat} {x : BitVec n} (h : x &&& BitVec.allOnes n = 0#n) : x = 0#n :=
  BitVec.and_allOnes.symm.trans h

/-- A word that matches a row is the word of the instruction assembled from it: the mask and the operand fields
leave no bit out. -/
theorem encode_assemble {r : Row} (hr : r ∈ opcodeTable) {w : Word} (hw : w &&& r.mask = r.pattern) :
    encode (assemble r.op w) = w := by
  rw [← mkWord_fields w] at hw ⊢
  generalize opField w = op, hField w = h, argField w = arg at hw
  obtain ⟨o, p, m⟩ := r
  cases o <;>
    (obtain ⟨rfl, rfl⟩ := (by simpa [opcodeTable_eq] using hr)
     obtain ⟨rfl, hh, ha⟩ := fields_of_match hw)
  case init => simp [assemble, encode, extract4_mkWord, widen_narrow (n := 4) ha]
  case cfgadc => simp [assemble, encode, extract4_mkWord, widen_narrow (n := 4) ha, eq_zero_of_mask hh]
  case wrout => simp [assemble, encode, extract8_mkWord, widen_narrow (n := 8) ha, eq_zero_of_mask hh]
  case conv => simp [assemble, encode, extract10_mkWord, widen_narrow (n := 10) ha, eq_zero_of_mask hh]
  case stxe | skey => simp only [assemble, encode, bit0_mkWord, widen_bit0 ha, eq_zero_of_mask hh]
  case cfgclk => simp [assemble, encode, eq_zero_of_mask hh]
  case newin => simp [assemble, encode, tc16]
  case reqout => simp [assemble, encode, eq_zero_of_mask ha]
  all_goals simp only [assemble, encode, eq_zero_of_mask hh, eq_zero_of_mask ha]

/-- Every 16-bit pattern is a sample that fits (R11). -/
theorem wf_assemble (o : Op) (w : Word) : (assemble o w).wf = true := by
  cases o with
  | newin =>
    have hlo := (argField w).le_toInt
    have hhi := (argField w).toInt_lt
    exact (sampleFits_iff _).mpr ⟨hlo, Int.le_of_lt_add_one hhi⟩
  | _ => rfl

/-- Settles O2: a word that decodes matches a row and is assembled by it. -/
theorem encodeDecodeRoundTrip : Obligations.EncodeDecodeRoundTrip := by
  unfold Obligations.EncodeDecodeRoundTrip
  intro w i hd
  obtain ⟨r, hr, hw, rfl⟩ := decode_eq_ok_iff.mp hd
  exact ⟨wf_assemble r.op w, encode_assemble hr hw⟩

/-! ### The table written out (R83, R84) -/

/-- What R84 says of the words that match a row: pattern, mask, class and the operation with its operands. -/
def Row.reading (w : Word) (r : Row) : Word × Word × OpClass × Instr :=
  (r.pattern, r.mask, r.op.cls, assemble r.op w)

/-- Two's complement by its sign bit (R11). -/
theorem toInt_eq_signBit (arg : Half) :
    arg.toInt = if arg.getLsbD 15 then (arg.toNat : Int) - 65536 else arg.toNat :=
  arg.toInt_eq_msb_cond

/-- Settles O3: the table written out is the table the decoder searches, row by row. -/
theorem wordSpellsByMaskAndMatch : Obligations.WordSpellsByMaskAndMatch := by
  unfold Obligations.WordSpellsByMaskAndMatch
  intro w hd arg signed r hr
  have hsigned : signed = arg.toInt := (toInt_eq_signBit arg).symm
  rw [hsigned] at hr
  obtain ⟨row, hrow, rfl⟩ : ∃ row ∈ opcodeTable, row.reading w = r := List.mem_map.mp hr
  exact ⟨(decode_eq_assemble_iff hrow).symm, congrArg Op.cls (op_assemble row.op w)⟩

/-! ### The class of an operation, and the host port (R81, R92) -/

/-- The class digit of a word is the high digit of its `op` field. -/
theorem classDigit_eq (w : Word) : w.extractLsb' 28 4 = (opField w).extractLsb' 4 4 := by
  apply BitVec.eq_of_toNat_eq
  simp only [opField, BitVec.extractLsb'_toNat, Nat.shiftRight_eq_div_pow]
  omega

/-- The host port passes a word exactly when it decodes to a host command. -/
theorem decodeHost_eq_some_iff {w : Word} {i : Instr} :
    decodeHost w = some i ↔ decode w = .ok i ∧ i.op.cls = .host := by
  unfold decodeHost
  cases decode w with
  | ok j =>
    simp only [Option.ite_none_right_eq_some, Option.some.injEq, Decoded.ok.injEq]
    exact ⟨fun ⟨h, e⟩ => ⟨e, e ▸ h⟩, fun ⟨e, h⟩ => ⟨e ▸ h, e⟩⟩
  | error e => simp

end Sys2Proof

namespace Sys2Proof.Machine

/-- Settles O4: the class stands in the `op` field, the host port tests it, and a turn brings the operations of
its own agent. -/
theorem operationsIssuedByTheirClass : Obligations.OperationsIssuedByTheirClass := by
  unfold Obligations.OperationsIssuedByTheirClass
  intro i
  refine ⟨?digit, fun hwf => ?port, fun t s hoffer => ?turn⟩
  case digit =>
    rw [classDigit_eq, opField_encode]
    cases i.op <;> rfl
  case port =>
    rw [decodeHost_eq_some_iff, and_iff_right (decodeEncodeRoundTrip i hwf)]
  case turn =>
    rcases offer_op hoffer with ⟨rfl, rfl⟩ | ⟨rfl, -, rfl⟩ | ⟨rfl, -, -, -, rfl⟩ | ⟨rfl, -, rfl⟩ | ⟨rfl, -, rfl⟩ |
      ⟨rfl, -, rfl⟩ | ⟨rfl, -, hcls⟩
    case inr.inr.inr.inr.inr.inr => simp [hcls]
    all_goals simp [Instr.op, Op.cls]

/-! ### Reserved codes (R93) -/

/-- The codes of the eighteen rows are those between the reserved ranges. -/
theorem isOpcode_eq_false_iff (op : Byte) :
    isOpcode op = false ↔ op.toNat = 0x00 ∨ (0x06 ≤ op.toNat ∧ op.toNat ≤ 0x0F) ∨
      (0x14 ≤ op.toNat ∧ op.toNat ≤ 0x1F) ∨ (0x23 ≤ op.toNat ∧ op.toNat ≤ 0x2F) ∨
      (0x32 ≤ op.toNat ∧ op.toNat ≤ 0x3F) ∨ (0x44 ≤ op.toNat ∧ op.toNat ≤ 0xFF) := by
  revert op; decide

theorem lookup_of_reserved {w : Word} (h : isOpcode (opField w) = false) : lookup w = none := by
  rw [Option.eq_none_iff_forall_ne_some]
  intro r hl
  obtain ⟨hr, hw⟩ := lookup_eq_some_iff.mp hl
  have hcode : isOpcode (opField w) = true :=
    List.any_eq_true.mpr ⟨r, hr, beq_iff_eq.mpr (opField_of_match hr hw).symm⟩
  exact absurd hcode (by simp [h])

theorem decode_of_reserved {w : Word} (h : isOpcode (opField w) = false) :
    decode w = .error (.reservedOp (opField w)) := by
  simp [decode, lookup_of_reserved h, h]

theorem decode_of_isOpcode {w : Word} (h : isOpcode (opField w) = true) :
    decode w = .error (.mustBeZero (opField w)) ∨ ∃ i, decode w = .ok i := by
  cases hl : lookup w with
  | none => exact .inl (by simp [decode, hl, h])
  | some r => exact .inr ⟨assemble r.op w, by simp [decode, hl]⟩

/-- Settles O5: the reserved codes are the codes of no row, and a word matches only rows of its own code. -/
theorem reservedCodesRejected : Obligations.ReservedCodesRejected := by
  unfold Obligations.ReservedCodesRejected
  intro w
  simp only [← isOpcode_eq_false_iff, Bool.not_eq_false]
  exact ⟨decode_of_reserved, decode_of_isOpcode⟩

/-! ### The host port's turn (R92, R206) -/

/-- A host command is a word of one of the five class-H rows. -/
theorem exists_decodeHost_iff (w : Word) :
    (∃ i, decodeHost w = some i) ↔
      w &&& 0xFF00FFF0#32 = 0x01000000#32 ∨ w &&& 0xFFFFFFFE#32 = 0x02000000#32 ∨
      w &&& 0xFFFFFFFE#32 = 0x03000000#32 ∨ w = 0x04000000#32 ∨ w = 0x05000000#32 := by
  have hall : w &&& 0xFFFFFFFF#32 = w := BitVec.and_allOnes
  calc (∃ i, decodeHost w = some i)
    _ ↔ ∃ r ∈ opcodeTable, w &&& r.mask = r.pattern ∧ r.op.cls = .host := by
      simp only [decodeHost_eq_some_iff, decode_eq_ok_iff]
      constructor
      · rintro ⟨_, ⟨r, hr, hw, rfl⟩, hcls⟩
        exact ⟨r, hr, hw, by simpa using hcls⟩
      · rintro ⟨r, hr, hw, hcls⟩
        exact ⟨_, ⟨r, hr, hw, rfl⟩, by simpa using hcls⟩
    _ ↔ _ := by simp [opcodeTable, Op.cls, hall]

/-- With `SEQ` = 0 the FOREGROUND's turn uses up the offered word. -/
theorem stepTurn_foreground_open {s : State} (hs : s.seq = 0#2) :
    stepTurn .foreground s = runOffer (foregroundOffer s) { s with env := s.env.popHostWord } := by
  have he : offerEnv .foreground s = s.env.popHostWord := if_pos ((hrdy_iff s).mpr hs)
  rw [stepTurn, he, offer]

theorem foregroundOffer_command {s : State} {i : Instr} (hs : s.seq = 0#2) (hd : decodeHost s.env.hostWord = some i) :
    foregroundOffer s = .op i := by
  rw [foregroundOffer, if_pos ((hrdy_iff s).mpr hs), hd]

theorem foregroundOffer_illegal {s : State} (hs : s.seq = 0#2) (hd : decodeHost s.env.hostWord = none) :
    foregroundOffer s = .illegal s.env.hostWord := by
  rw [foregroundOffer, if_pos ((hrdy_iff s).mpr hs), hd]

theorem hostWord_of_cons {e : Env} {w : Word} {ws : List Word} (h : e.hcmd = w :: ws) : e.hostWord = w := by
  rw [Env.hostWord, h]

theorem popHostWord_of_cons {e : Env} {w : Word} {ws : List Word} (h : e.hcmd = w :: ws) :
    e.popHostWord = { e with hcmd := ws } := by
  rw [Env.popHostWord, h]

/-- Settles O9: the port runs what `decodeHost` passes, which are the words of the five class-H rows. -/
theorem hostPortAcceptsOnlyHostCommands : Obligations.HostPortAcceptsOnlyHostCommands := by
  unfold Obligations.HostPortAcceptsOnlyHostCommands
  intro s w rest ws hi ha hcmd hs s' legal
  let u : State := { s with env := { s.env with agenda := rest } }
  have hword : u.env.hostWord = w := hostWord_of_cons hcmd
  have hstep : step s = runOffer (foregroundOffer u) s' := by
    rw [step_of_agenda hi ha, stepTurn_foreground_open (s := u) hs, popHostWord_of_cons (e := u.env) hcmd]
  have hlegal : legal ↔ ∃ i, decodeHost w = some i := (exists_decodeHost_iff w).symm
  rw [hstep, hlegal]
  constructor
  · rintro ⟨i, hdec⟩
    rw [foregroundOffer_command (s := u) hs (hword ▸ hdec)]
    exact ⟨i, (decodeHost_eq_some_iff.mp hdec).1, rfl⟩
  · intro hnone
    have hdec : decodeHost w = none := Option.eq_none_iff_forall_ne_some.mpr fun i h => hnone ⟨i, h⟩
    rw [foregroundOffer_illegal (s := u) hs (hword ▸ hdec), hword]
    rfl

/-! ### Words of the test vectors (95_test_vectors section 2) -/

/-- Settles O6: each of the eight words is decoded by running the decoder. -/
theorem spelledWordsDecode : Obligations.SpelledWordsDecode := by
  unfold Obligations.SpelledWordsDecode
  decide

end Sys2Proof.Machine

/-! The statements of 40_sampling_clock: the divisor (R101), the configuration of the clock (R102), the edges and
the ticks (R104), and that nothing but three registers decides which edges are ticks (R105, R106). -/

namespace Sys2Proof.Machine

/-! ### The divisor (R8, R101) -/

theorem divisorQ_of_nonneg {p : Params} (h : 0 ≤ (p.fBase : Int) + p.corr) :
    divisorQ p = ((p.fBase : Int) + p.corr) / 9600 :=
  Int.tdiv_eq_ediv_of_nonneg h

/-- Rounding toward zero is rounding the magnitude down. -/
theorem divisorQ_of_neg {p : Params} (h : (p.fBase : Int) + p.corr < 0) :
    divisorQ p = -(-((p.fBase : Int) + p.corr) / 9600) := by
  have hpos : 0 ≤ -((p.fBase : Int) + p.corr) := by omega
  rw [← Int.tdiv_eq_ediv_of_nonneg hpos, Int.neg_tdiv, neg_neg]
  rfl

/-- Settles O14: `RELOAD_CONST` is an integer quotient of the frequency or of its negation, less one. -/
theorem divisorArithmetic : Obligations.DivisorArithmetic := by
  unfold Obligations.DivisorArithmetic
  intro p f
  have hnonneg : 0 ≤ f → reloadConst p = f / 9600 - 1 := fun hf =>
    congrArg (· - 1) (divisorQ_of_nonneg hf)
  have hneg : f < 0 → reloadConst p = -(-f / 9600) - 1 := fun hf =>
    congrArg (· - 1) (divisorQ_of_neg hf)
  refine ⟨fun hf => ?_, fun hf => ?_, ?_, toNat_reloadWord⟩
  · have := hnonneg hf; omega
  · have := hneg hf; omega
  · rw [reloadFits_iff]
    rcases lt_or_ge f 0 with hf | hf
    · have := hneg hf; omega
    · have := hnonneg hf; omega

/-! ### The operations CLK and CFGCLK (R102, R104) -/

/-- Settles O12: the four cases of CLK, with the words it records. -/
theorem clkCountsTicksOrOverruns : Obligations.ClkCountsTicksOrOverruns := by
  unfold Obligations.ClkCountsTicksOrOverruns
  intro s
  have hopen : serviceOpen s = true ↔ s.tickf = true ∨ s.adcBusy = true ∨ s.adcf = true ∨ s.seq ≠ 0#2 := by
    rw [serviceOpen_iff, or_assoc, or_assoc]
  refine ⟨fun hen => ?_, fun hen hne => ?_, fun hen heq ho => ?_, fun hen heq hno => ?_⟩
  · exact execClk_of_stopped hen
  · exact execClk_of_counting hen hne
  · exact execClk_of_overrun hen heq (hopen.mpr ho)
  · have hclosed : serviceOpen s = false := Bool.eq_false_iff.mpr (mt hopen.mp hno)
    have hbusy : s.adcBusy = false := Bool.eq_false_iff.mpr fun hb => hno (.inr (.inl hb))
    show execClk s = _
    rw [execClk_of_tick hen heq hclosed, trigger_eq]
    cases hauto : s.adcEn && s.adcAte <;> simp [record_eq, hauto, hbusy, encode_clk, encode_trig]

/-- Settles O13: CFGCLK sets the clock, and its word is the code with the divisor. -/
theorem cfgclkRestartsPeriod : Obligations.CfgclkRestartsPeriod := by
  unfold Obligations.CfgclkRestartsPeriod
  intro d s
  rw [← encode_cfgclk]
  rfl

/-! ### The three registers of the timer (R105) -/

/-- What decides which edges are ticks (R105). -/
structure Timer where
  /-- `TMR_EN` (R23). -/
  en : Bool
  /-- `CNT` (R22). -/
  cnt : Half
  /-- `RELOAD` (R21). -/
  reload : Half

/-- The timer of the machine. -/
def State.timer (s : State) : Timer := ⟨s.tmrEn, s.cnt, s.reload⟩

/-- What one edge makes of the timer: stopped it stands, else `CNT` counts up to `RELOAD` and restarts (R104). -/
def Timer.edge (c : Timer) : Timer :=
  if c.en = true then { c with cnt := if c.cnt = c.reload then 0#16 else c.cnt + 1#16 } else c

/-- What an operation other than INIT makes of the timer. -/
def Timer.after (c : Timer) : Instr → Timer
  | .cfgclk d => ⟨true, 0#16, d⟩
  | .clk => c.edge
  | _ => c

theorem State.timer_eq_iff (s t : State) :
    s.timer = t.timer ↔ s.tmrEn = t.tmrEn ∧ s.cnt = t.cnt ∧ s.reload = t.reload := by
  rw [State.timer, State.timer, Timer.mk.injEq]

theorem isTick_congr {s t : State} (h : s.timer = t.timer) : isTick s = isTick t := by
  obtain ⟨htmr, hcnt, hreload⟩ := (State.timer_eq_iff s t).mp h
  rw [isTick, isTick, htmr, hcnt, hreload]

theorem execClk_timer {s t : State} (h : execClk s = .next t) : t.timer = s.timer.edge := by
  rcases execClk_next h with ⟨hen, rfl⟩ | ⟨hen, hne, rfl⟩ | ⟨hen, heq, -, rfl⟩
  · simp [State.timer, Timer.edge, hen]
  · simp [State.timer, Timer.edge, hen, hne]
  · simp [State.timer, Timer.edge, hen, heq]

/-- Only CFGCLK, CLK and INIT write a register of the timer (R21, R22, R23). -/
theorem exec_timer_of_other {i : Instr} {s t : State} (h : exec i s = .next t)
    (hi : i.op ∉ [Op.clk, .cfgclk, .init]) : t.timer = s.timer := by
  obtain ⟨hconf, hcnt, -⟩ := registersHaveOnlyTheirWriters i s t h
  obtain ⟨hreload, htmr⟩ := hconf fun hmem => hi (List.mem_cons_of_mem _ hmem)
  exact (State.timer_eq_iff t s).mpr ⟨htmr, hcnt hi, hreload⟩

/-- An operation other than INIT reads of the state nothing but the timer to set the timer (R105). -/
theorem exec_timer {i : Instr} {s t : State} (h : exec i s = .next t) (hi : i.op ≠ .init) :
    t.timer = s.timer.after i := by
  cases i with
  | init => exact absurd rfl hi
  | cfgclk d => cases h; rfl
  | clk => exact execClk_timer h
  | _ => exact exec_timer_of_other h (by simp [Instr.op])

/-- Settles O16: equal timers stay equal, and the timer decides whether the next edge is a tick. -/
theorem tickTrainIgnoresEverythingElse : Obligations.TickTrainIgnoresEverythingElse := by
  unfold Obligations.TickTrainIgnoresEverythingElse
  intro i s₁ s₂ t₁ t₂ hi htmr hcnt hreload h₁ h₂
  have hs : s₁.timer = s₂.timer := (State.timer_eq_iff s₁ s₂).mpr ⟨htmr, hcnt, hreload⟩
  have ht : t₁.timer = t₂.timer := by rw [exec_timer h₁ hi, exec_timer h₂ hi, hs]
  obtain ⟨htmr', hcnt', hreload'⟩ := (State.timer_eq_iff t₁ t₂).mp ht
  exact ⟨htmr', hcnt', hreload', isTick_congr ht⟩

/-! ### The period (R106) -/

/-- No CFGCLK word was recorded from `s` to `t`. -/
def NoCfgclk (s t : State) : Prop := ∀ w ∈ t.hist.drop s.hist.length, opField w ≠ 0x10#8

theorem NoCfgclk.split {s u t : State} (h : NoCfgclk s t) (hsu : s.hist <+: u.hist) (hut : u.hist <+: t.hist) :
    NoCfgclk s u ∧ NoCfgclk u t := by
  obtain ⟨l₁, h₁⟩ := hsu
  obtain ⟨l₂, h₂⟩ := hut
  have hall : ∀ w ∈ l₁ ++ l₂, opField w ≠ 0x10#8 := by simpa [NoCfgclk, ← h₂, ← h₁] using h
  rw [List.forall_mem_append] at hall
  exact ⟨by simpa [NoCfgclk, ← h₁] using hall.1, by simpa [NoCfgclk, ← h₂] using hall.2⟩

/-- A CFGCLK that runs, alone or inside INIT, records its word (R102, R188). -/
theorem not_noCfgclk {s t : State} {l₁ l₂ : List Word} {d : Half}
    (h : t.hist = s.hist ++ (l₁ ++ encode (.cfgclk d) :: l₂)) : ¬ NoCfgclk s t := fun hno =>
  hno (encode (.cfgclk d)) (by simp [h]) (opField_encode (.cfgclk d))

/-- As long as no CFGCLK is recorded, the timer moves with the edges alone. -/
theorem exec_timer_edges {i : Instr} {s t : State} (h : exec i s = .next t) (hno : NoCfgclk s t) :
    t.timer = Timer.edge^[clkCount [i]] s.timer := by
  cases i with
  | clk => exact execClk_timer h
  | cfgclk d => cases h; exact absurd hno (not_noCfgclk (l₁ := []) (setClock_hist d s))
  | init ch hd =>
    rcases exec_next h with rfl | hran
    · rfl
    · cases hran with
      | initFaults => rfl
      | initPasses _ hc =>
        rw [initialized_of_none hc] at hno
        exact absurd hno (not_noCfgclk (l₁ := [encode (.init ch hd)]) rfl)
  | _ => exact exec_timer_of_other h (by simp [Instr.op])

theorem execAll_cons_next {i : Instr} {is : List Instr} {s t : State} (h : execAll (i :: is) s = .next t) :
    ∃ u, exec i s = .next u ∧ execAll is u = .next t := by
  rw [execAll] at h
  cases hu : exec i s with
  | next u => rw [hu] at h; exact ⟨u, rfl, h⟩
  | fault _ | refused _ => rw [hu] at h; cases h

theorem execAll_hist_prefix {is : List Instr} {s t : State} (h : execAll is s = .next t) : s.hist <+: t.hist := by
  induction is generalizing s with
  | nil => cases h; exact List.prefix_rfl
  | cons i is ih =>
    obtain ⟨u, hi, his⟩ := execAll_cons_next h
    exact (exec_hist_prefix hi).trans (ih his)

theorem clkCount_cons (i : Instr) (is : List Instr) : clkCount (i :: is) = clkCount is + clkCount [i] := by
  simp [clkCount, List.count_cons]

theorem execAll_timer_edges {is : List Instr} {s t : State} (h : execAll is s = .next t) (hno : NoCfgclk s t) :
    t.timer = Timer.edge^[clkCount is] s.timer := by
  induction is generalizing s with
  | nil => cases h; rfl
  | cons i is ih =>
    obtain ⟨u, hi, his⟩ := execAll_cons_next h
    obtain ⟨hsu, hut⟩ := hno.split (exec_hist_prefix hi) (execAll_hist_prefix his)
    rw [ih his hut, exec_timer_edges hi hsu, clkCount_cons i is, Function.iterate_add_apply]

@[simp] theorem Timer.edge_en (c : Timer) : c.edge.en = c.en := by
  rw [Timer.edge]; split <;> rfl

@[simp] theorem Timer.edge_reload (c : Timer) : c.edge.reload = c.reload := by
  rw [Timer.edge]; split <;> rfl

/-- A running counter at or below `RELOAD` counts modulo `RELOAD` + 1 (R104). -/
theorem Timer.edge_cnt {c : Timer} (hen : c.en = true) (hb : c.cnt.toNat ≤ c.reload.toNat) :
    c.edge.cnt.toNat = (c.cnt.toNat + 1) % (c.reload.toNat + 1) := by
  rw [Timer.edge, if_pos hen]
  by_cases heq : c.cnt = c.reload
  · simp [heq]
  · have hlt : c.cnt.toNat + 1 < c.reload.toNat + 1 := by bv_omega
    rw [Nat.mod_eq_of_lt hlt, if_neg heq]
    bv_omega

/-- From 0 a running counter holds the number of edges modulo `RELOAD` + 1. -/
theorem Timer.iterate_edge {c : Timer} (hen : c.en = true) (hcnt : c.cnt = 0#16) (n : Nat) :
    (Timer.edge^[n] c).en = true ∧ (Timer.edge^[n] c).reload = c.reload ∧
      (Timer.edge^[n] c).cnt.toNat = n % (c.reload.toNat + 1) := by
  induction n with
  | zero => simp [hen, hcnt]
  | succ n ih =>
    obtain ⟨ihen, ihreload, ihcnt⟩ := ih
    have hbound : n % (c.reload.toNat + 1) ≤ c.reload.toNat := Nat.lt_succ_iff.mp (Nat.mod_lt n (Nat.succ_pos _))
    rw [Function.iterate_succ_apply']
    refine ⟨by simpa using ihen, by simpa using ihreload, ?_⟩
    rw [Timer.edge_cnt ihen (by rw [ihcnt, ihreload]; exact hbound), ihcnt, ihreload, Nat.mod_add_mod]

/-- Settles O15: up to `t` the timer moved with the edges alone, which from `CNT` = 0 count modulo `RELOAD` + 1. -/
theorem tickPeriodIsReloadPlusOne : Obligations.TickPeriodIsReloadPlusOne := by
  unfold Obligations.TickPeriodIsReloadPlusOne
  intro is s t htmr hcnt h hno
  have htimer : t.timer = Timer.edge^[clkCount is] s.timer := execAll_timer_edges h hno
  obtain ⟨hen, hreload, hmod⟩ := Timer.iterate_edge (c := s.timer) htmr hcnt (clkCount is)
  rw [← htimer] at hen hreload hmod
  refine ⟨hreload, hen, hmod, ?_⟩
  have htick : t.cnt = t.reload ↔ clkCount is % (s.reload.toNat + 1) = s.reload.toNat := by
    rw [← BitVec.toNat_inj]
    exact iff_of_eq (congrArg₂ (· = ·) hmod (congrArg BitVec.toNat hreload))
  rw [isTick_iff, htick, Nat.dvd_iff_mod_eq_zero, Nat.succ_mod_succ_eq_zero_iff]
  exact and_iff_right hen

end Sys2Proof.Machine

/-! The statements of 41_capture_path: the configuration of the converter (R121), the conversion (R123, R124), the
read (R125), the recentered sample (R126, R128) and its transfer to the modem (R127), and that in a fair run a
conversion in flight completes (R124). -/

namespace Sys2Proof.Machine

/-! ### The recentered sample (R126, R128) -/

/-- The recentered sample of a raw value lies in −128 to 127. -/
theorem recentered_bounds (r : Raw) :
    -128 ≤ ((r.toNat / 4 : Nat) : Int) - 128 ∧ ((r.toNat / 4 : Nat) : Int) - 128 ≤ 127 := by
  have := r.isLt
  omega

/-- `SAMPLE` holds the recentered sample without loss, since it fits 16 bits. -/
theorem captured_sample_toInt (s : State) :
    (captured s).sample.toInt = ((s.adcData.toNat / 4 : Nat) : Int) - 128 := by
  obtain ⟨hlow, hhigh⟩ := recentered_bounds s.adcData
  have hfits : sampleFits (((s.adcData.toNat / 4 : Nat) : Int) - 128) = true := by
    rw [sampleFits, Bool.and_eq_true, decide_eq_true_iff, decide_eq_true_iff]
    omega
  rw [captured_eq, recenter_read]
  exact toInt_tc16 hfits

theorem exec_capt_ready {s : State} (hs : s.seq = 2#2) : exec .capt s = .next (captured s) :=
  guarded_of_true captured s (by simp [hs])

theorem exec_capt_held {s : State} (hs : s.seq ≠ 2#2) : exec .capt s = .next s :=
  guarded_of_false captured s (by simp [hs])

/-- What CAPT answers with `SEQ` = 2, as an integer: the formula of R128. -/
theorem exec_capt_sample {s t : State} (hs : s.seq = 2#2) (h : exec .capt s = .next t) :
    t.sample.toInt = ((s.adcData.toNat / 4 : Nat) : Int) - 128 := by
  cases (exec_capt_ready hs).symm.trans h
  exact captured_sample_toInt s

/-- Settles O23: the formula of R128 gives the range, the sample of mid-scale, and the order. -/
theorem recenteringLaw : Obligations.RecenteringLaw := by
  unfold Obligations.RecenteringLaw
  intro s t hs h
  have hsample := exec_capt_sample hs h
  obtain ⟨hlow, hhigh⟩ := recentered_bounds s.adcData
  refine ⟨hsample, hsample ▸ hlow, hsample ▸ hhigh, fun hmid => ?_, fun s' t' hs' h' hle => ?_⟩
  · apply BitVec.eq_of_toInt_eq
    rw [hsample, hmid]
    rfl
  · rw [hsample, exec_capt_sample hs' h']
    have hquot : s.adcData.toNat / 4 ≤ s'.adcData.toNat / 4 := Nat.div_le_div_right hle
    omega

/-! ### A conversion in flight completes (R124) -/

/-- The CONVERTER's turn with a conversion in flight stores some raw value, whatever the environment offers. -/
theorem StepsBy.eq_converted {s s' : State} (h : StepsBy .converter s s') (hb : s.adcBusy = true) :
    ∃ (raw : Raw) (e : Env), s' = converted raw { s with env := e } := by
  obtain ⟨e, hturn⟩ := h.turn
  cases (stepTurn_conv_ready (s := { s with env := e }) hb).symm.trans hturn
  exact ⟨_, _, rfl⟩

/-- Settles O51: only the CONVERTER's turn or RESET ends the conversion, so fairness brings one of the two. -/
theorem conversionInFlightCompletes : Obligations.ConversionInFlightCompletes := by
  unfold Obligations.ConversionInFlightCompletes
  intro σ r n ⟨hrun, hfair⟩ hbusy
  obtain ⟨m, hm, hready, hreset | hagent⟩ := eventually_taken hfair .conv hbusy
    fun m _ ho ht hreset => (hrun m).ready_kept ho ht hreset
  · exact ⟨m, hm, .inl hreset⟩
  · have hstep := hrun m
    rw [hagent] at hstep
    obtain ⟨raw, e, heq⟩ := hstep.eq_converted hready
    refine ⟨m, hm, .inr ⟨hagent, hready, ?_⟩⟩
    rw [heq]
    exact ⟨rfl, rfl, rfl⟩

/-! ### The operations CFGADC, TRIG, CONV and RDIN (R121, R123, R124, R125) -/

/-- Settles O17: CFGADC sets the converter, and its word is the code with the channel. -/
theorem cfgadcConfiguresConverter : Obligations.CfgadcConfiguresConverter := by
  unfold Obligations.CfgadcConfiguresConverter
  intro ch s
  rw [← encode_cfgadc]
  rfl

/-- Settles O18: TRIG starts a conversion with both enables set, and with one of them clear does nothing. -/
theorem trigStartsConversion : Obligations.TrigStartsConversion := by
  unfold Obligations.TrigStartsConversion
  intro s
  have hexec : exec .trig s = .next (trigger s) := rfl
  rw [hexec, trigger_eq, ← encode_trig]
  constructor
  · intro hen hate
    simp [hen, hate]
  · intro hoff
    have hclear : (s.adcEn && s.adcAte) = false := Bool.and_eq_false_iff.mpr hoff
    simp [hclear]

/-- Settles O19: CONV completes behind its guard, and its word is the code with the raw value. -/
theorem convCompletesConversion : Obligations.ConvCompletesConversion := by
  unfold Obligations.ConvCompletesConversion
  intro raw s
  rw [← encode_conv]
  exact ⟨fun hb => guarded_of_true (converted raw) s hb, fun hb => guarded_of_false (converted raw) s hb⟩

/-- Settles O20: RDIN shows the converter's data on its latch and records its word. -/
theorem rdinReturnsConverterData : Obligations.RdinReturnsConverterData := by
  unfold Obligations.RdinReturnsConverterData
  intro s
  rw [← encode_rdin]
  rfl

/-! ### The transfer to the modem: NEWIN and CAPT (R126, R127) -/

theorem popNewin_of_cons {e : Env} {fw : List FlagWrite} {rest : List (List FlagWrite)}
    (h : e.newins = fw :: rest) : e.popNewin = { e with newins := rest } := by
  rw [Env.popNewin, h]

theorem popNewin_of_nil {e : Env} (h : e.newins = []) : e.popNewin = e.countDraw := by
  rw [Env.popNewin, h]

/-- NEWIN in closed form (R127). -/
theorem sendSample_eq (hd : Handle) (x : Int) (s : State) :
    sendSample hd x s =
      { s with
        hist := s.hist ++ [encode (.newin hd x)],
        ports := { s.ports with
          mout := encode (.newin hd x),
          mrspWrites := s.env.newinAnswer (s.hist ++ [encode (.newin hd x)]) hd x },
        env := s.env.popNewin } := rfl

/-- Settles O21: the answer and the environment after it are those of a queued list, or of a free value. -/
theorem newinSendsSample : Obligations.NewinSendsSample := by
  unfold Obligations.NewinSendsSample
  intro hd x s w
  have hexec : exec (.newin hd x) s = .next (sendSample hd x s) := rfl
  have hword : encode (.newin hd x) = w := encode_newin hd x
  rw [hexec, sendSample_eq, hword]
  refine ⟨fun fw rest hq => ?_, fun hq => ⟨s.env.newinAnswer (s.hist ++ [w]) hd x, ?_⟩⟩
  · rw [newinAnswer_of_cons hq, popNewin_of_cons hq]
  · rw [popNewin_of_nil hq]
    rfl

/-- Settles O22: CAPT's closed form, with the sample as R128 gives it and the modem's answer queued or free. -/
theorem captDeliversRecenteredSample : Obligations.CaptDeliversRecenteredSample := by
  unfold Obligations.CaptDeliversRecenteredSample
  intro s x w after
  have hx : recenter (s.adcData.setWidth 16) = x := recenter_read s.adcData
  have hword : encode (.newin s.modem x) = w := encode_newin s.modem x
  have hexec (hs : s.seq = 2#2) :
      exec .capt s = .next (after (s.env.newinAnswer (captured s).hist s.modem x) s.env.popNewin) := by
    rw [exec_capt_ready hs]
    simp only [captured_eq, hx, hword, encode_capt, encode_rdin, writesTo_eq_foldl]
    rfl
  refine ⟨fun hs fw rest hq => ?_, fun hs hq => ⟨s.env.newinAnswer (captured s).hist s.modem x, ?_⟩, exec_capt_held⟩
  · rw [hexec hs, newinAnswer_of_cons hq, popNewin_of_cons hq]
  · rw [hexec hs, popNewin_of_nil hq]
    rfl

end Sys2Proof.Machine

/-! The statements of 42_playback_path: the write of the output port (R141), the modem transaction REQOUT (R143),
the choice of PLAY (R142), and what PLAY leaves at the port and the pins (R144, R145). -/

namespace Sys2Proof.Machine

/-! ### The pins follow the port (R39, R40) -/

theorem dacPins_driven {s : State} (h : s.outEn = true) : dacPins s = some (s.out.extractLsb' 4 4) := if_pos h

theorem dacPins_undriven {s : State} (h : s.outEn = false) : dacPins s = none := if_neg (by simp [h])

theorem pttPin_driven {s : State} (h : s.outEn = true) : pttPin s = some (s.out.getLsbD 3) := if_pos h

theorem pttPin_undriven {s : State} (h : s.outEn = false) : pttPin s = none := if_neg (by simp [h])

/-! ### What PLAY leaves at the port and in the history (R142) -/

theorem exec_play_ready {s : State} (hs : s.seq = 3#2) : exec .play s = .next (played s) :=
  guarded_of_true played s (by simp [hs])

theorem exec_play_held {s : State} (hs : s.seq ≠ 3#2) : exec .play s = .next s :=
  guarded_of_false played s (by simp [hs])

@[simp] theorem played_outEn (s : State) : (played s).outEn = s.outEn := by
  obtain ⟨_, _, _, _, _, _, -, -, -, heq⟩ := played_frame s
  rw [heq]

theorem played_out_idle {s : State} (h : s.txen = false) : (played s).out = idleByte s.key := by
  rw [played_idle s h]

/-- With `TXEN` = 1 the byte is made of the sample that `MRSP` carries afterwards. -/
theorem played_out_modulating {s : State} (h : s.txen = true) :
    (played s).out = modulatingByte (played s).ports.mrspSample := by
  rw [played_modulating s h]

/-- PLAY asks the modem exactly when `TXEN` = 1: only then a REQOUT is among the words it appends. -/
theorem played_asks_iff (s : State) :
    (∃ w ∈ (played s).hist.drop s.hist.length, opField w = 0x31#8) ↔ s.txen = true := by
  cases h : s.txen with
  | false =>
    have hwords : (played s).hist.drop s.hist.length = [encode .play, encode (.wrout (idleByte s.key))] := by
      rw [played_idle s h, List.drop_left]
    simp [hwords, opField_encode, Instr.op]
  | true =>
    have hasked : encode (.reqout s.modem) ∈ (played s).hist.drop s.hist.length := by
      simp [played_modulating s h]
    exact iff_of_true ⟨_, hasked, opField_encode (.reqout s.modem)⟩ rfl

/-! ### The table of R144 and the mask-and-key law (R145) -/

theorem modulatingByte_dac (v : Byte) : (modulatingByte v).extractLsb' 4 4 = v.extractLsb' 4 4 := by
  revert v; decide

theorem modulatingByte_ptt (v : Byte) : (modulatingByte v).getLsbD 3 = true := by
  revert v; decide

/-- Settles O27: `TXEN` and `KEY` before PLAY choose the byte, and the pins are its fields. -/
theorem playOutputTable : Obligations.PlayOutputTable := by
  unfold Obligations.PlayOutputTable
  intro s t hs hen h
  cases (exec_play_ready hs).symm.trans h
  have hen' : (played s).outEn = true := (played_outEn s).trans hen
  rw [dacPins_driven hen', pttPin_driven hen']
  have hlow : (played s).out.extractLsb' 0 3 = 0#3 := by
    obtain ⟨_, _, _, _, _, _, hlow, -, -, heq⟩ := played_frame s
    rw [heq]
    exact hlow
  have hbyte : (played s).out = 0x80#8 ∨ (played s).out.getLsbD 3 = true := by
    cases htx : s.txen with
    | false =>
      rw [played_out_idle htx]
      cases s.key <;> decide
    | true => exact .inr (played_out_modulating htx ▸ modulatingByte_ptt _)
  refine ⟨fun htx hk => ?_, fun htx hk => ?_, fun htx => ?_, hlow, hbyte, played_asks_iff s⟩
  · rw [played_out_idle htx, hk]
    decide
  · rw [played_out_idle htx, hk]
    decide
  · rw [played_out_modulating htx, modulatingByte_dac, modulatingByte_ptt]
    exact ⟨toNat_modulatingByte _, rfl, rfl⟩

/-! ### WROUT (R141) -/

/-- Settles O24: the word is the code with the byte, and the pins show the byte just written. -/
theorem wroutWritesPortAndPins : Obligations.WroutWritesPortAndPins := by
  unfold Obligations.WroutWritesPortAndPins
  intro v s
  refine ⟨writeOutput v s, rfl, ?_, fun hen => ⟨dacPins_driven hen, pttPin_driven hen⟩,
    fun hoff => ⟨dacPins_undriven hoff, pttPin_undriven hoff⟩⟩
  rw [← encode_wrout]
  rfl

/-! ### The answer of the modem: REQOUT and PLAY (R142, R143) -/

theorem reqoutAnswer_of_cons {e : Env} {a : Byte × List FlagWrite} {rest : List (Byte × List FlagWrite)}
    (h : e.reqouts = a :: rest) (hist : List Word) (hd : Handle) : e.reqoutAnswer hist hd = a := by
  rw [Env.reqoutAnswer, h]

theorem popReqout_of_cons {e : Env} {a : Byte × List FlagWrite} {rest : List (Byte × List FlagWrite)}
    (h : e.reqouts = a :: rest) : e.popReqout = { e with reqouts := rest } := by
  rw [Env.popReqout, h]

theorem popReqout_of_nil {e : Env} (h : e.reqouts = []) : e.popReqout = e.countDraw := by
  rw [Env.popReqout, h]

/-- REQOUT in closed form (R143): `a` is the modem's answer. -/
theorem askSample_eq (hd : Handle) (s : State) :
    askSample hd s =
      let a := s.env.reqoutAnswer (s.hist ++ [encode (.reqout hd)]) hd
      { s with
        hist := s.hist ++ [encode (.reqout hd)],
        ports := { s.ports with mout := encode (.reqout hd), mrspSample := a.1, mrspWrites := a.2 },
        env := s.env.popReqout } := rfl

/-- Settles O25: the answer and the environment after it are those of a queued pair, or of a free value. -/
theorem reqoutAsksModem : Obligations.ReqoutAsksModem := by
  unfold Obligations.ReqoutAsksModem
  intro hd s w
  have hexec : exec (.reqout hd) s = .next (askSample hd s) := rfl
  have hword : encode (.reqout hd) = w := encode_reqout hd
  rw [hexec, askSample_eq, hword]
  refine ⟨fun v fw rest hq => ?_, fun hq => ?_⟩
  · rw [reqoutAnswer_of_cons hq, popReqout_of_cons hq]
  · rw [popReqout_of_nil hq]
    exact ⟨_, _, rfl⟩

/-- Settles O26: PLAY's closed forms, with the modem's answer queued or free, and the idle byte that `KEY`
chooses. -/
theorem playSelectsOutput : Obligations.PlaySelectsOutput := by
  unfold Obligations.PlaySelectsOutput
  intro s rq wr after
  have hmodulating (hs : s.seq = 3#2) (htx : s.txen = true) :
      let a := s.env.reqoutAnswer (s.hist ++ [encode .play, encode (.reqout s.modem)]) s.modem
      exec .play s = .next (after a.1 a.2 s.env.popReqout) := by
    rw [exec_play_ready hs, played_modulating s htx]
    simp only [encode_play, encode_reqout, encode_wrout, writesTo_eq_foldl, List.append_assoc]
    rfl
  have hidle (hs : s.seq = 3#2) (htx : s.txen = false) :
      exec .play s = .next
        { s with out := idleByte s.key, seq := 0#2, hist := s.hist ++ [0x22000000#32, wr (idleByte s.key)] } := by
    rw [exec_play_ready hs, played_idle s htx, encode_play, encode_wrout]
  refine ⟨fun hs htx v fw rest hq => ?_, fun hs htx hq => ?_, fun hs htx hk => ?_, fun hs htx hk => ?_,
    exec_play_held⟩
  · rw [hmodulating hs htx, reqoutAnswer_of_cons hq, popReqout_of_cons hq]
  · rw [hmodulating hs htx, popReqout_of_nil hq]
    exact ⟨_, _, rfl⟩
  · rw [hidle hs htx, hk]
    rfl
  · rw [hidle hs htx, hk]
    rfl

end Sys2Proof.Machine

/-! The statements of 43_key_control: the host's writes (R161, R162) and reads (R163, R164) of the two flags, and
who may write them (R165). -/

namespace Sys2Proof

/-! ### The host commands of a flag (R161, R162) -/

/-- The host command that writes `b` to a flag: STXE (R161) or SKEY (R162). -/
def Flag.command : Flag → Bool → Instr
  | .txen, b => .stxe b
  | .key, b => .skey b

theorem eq_command_of_op {f : Flag} {b : Bool} {i : Instr} (h : i.op = (f.command b).op) :
    ∃ b', i = f.command b' := by
  cases f with
  | txen =>
    cases i with
    | stxe b' => exact ⟨b', rfl⟩
    | _ => cases h
  | key =>
    cases i with
    | skey b' => exact ⟨b', rfl⟩
    | _ => cases h

theorem eq_ltxe_of_op {i : Instr} (h : i.op = .ltxe) : i = .ltxe := by
  cases i with
  | ltxe => rfl
  | _ => cases h

theorem eq_lkey_of_op {i : Instr} (h : i.op = .lkey) : i = .lkey := by
  cases i with
  | lkey => rfl
  | _ => cases h

/-! ### The host port by the code of a word (R92) -/

/-- The `op` field of an operation word determines the mnemonic (R84). -/
theorem op_eq_of_opField_eq {i j : Instr} (h : opField (encode i) = opField (encode j)) : i.op = j.op := by
  have hcodes : ∀ a ∈ opcodeTable, ∀ b ∈ opcodeTable, opField a.pattern = opField b.pattern → a.op = b.op := by
    decide
  obtain ⟨a, ha, hai, hwi⟩ := spelling i
  obtain ⟨b, hb, hbj, hwj⟩ := spelling j
  rw [← hai, ← hbj]
  exact hcodes a ha b hb ((opField_of_match ha hwi).symm.trans (h.trans (opField_of_match hb hwj)))

theorem encode_of_decodeHost {w : Word} {i : Instr} (h : decodeHost w = some i) : encode i = w :=
  (encodeDecodeRoundTrip w i (decodeHost_eq_some_iff.mp h).1).2

/-- The host port takes a host command from its own word only. -/
theorem decodeHost_eq_some_iff_encode {w : Word} {i : Instr} (hwf : i.wf = true) (hcls : i.op.cls = .host) :
    decodeHost w = some i ↔ w = encode i := by
  refine ⟨fun h => (encode_of_decodeHost h).symm, ?_⟩
  rintro rfl
  exact decodeHost_eq_some_iff.mpr ⟨decodeEncodeRoundTrip i hwf, hcls⟩

/-- A word with the code of `j` that is the word of no operation with `j`'s mnemonic is illegal (R92). -/
theorem decodeHost_eq_none_of_code {w : Word} {j : Instr} (hcode : opField w = opField (encode j))
    (hne : ∀ i : Instr, i.op = j.op → w ≠ encode i) : decodeHost w = none := by
  rw [Option.eq_none_iff_forall_ne_some]
  intro i h
  obtain rfl := encode_of_decodeHost h
  exact hne i (op_eq_of_opField_eq hcode) rfl

theorem decodeHost_command_iff (f : Flag) (b : Bool) (w : Word) :
    decodeHost w = some (f.command b) ↔ w = encode (f.command b) :=
  decodeHost_eq_some_iff_encode (by cases f <;> rfl) (by cases f <;> rfl)

/-- Of the words with the code of a flag's command the port takes two, one for each value. -/
theorem decodeHost_eq_none_of_command_code {f : Flag} {w : Word}
    (hcode : opField w = opField (encode (f.command false))) (h0 : w ≠ encode (f.command false))
    (h1 : w ≠ encode (f.command true)) : decodeHost w = none := by
  refine decodeHost_eq_none_of_code hcode fun i hi => ?_
  obtain ⟨b, rfl⟩ := eq_command_of_op hi
  cases b with
  | false => exact h0
  | true => exact h1

/-- Of the words with the code of a host command without operands the port takes one. -/
theorem decodeHost_of_sole_code {w : Word} {i : Instr} (hwf : i.wf = true) (hcls : i.op.cls = .host)
    (hsole : ∀ j : Instr, j.op = i.op → j = i) (hcode : opField w = opField (encode i)) :
    decodeHost w = if w = encode i then some i else none := by
  split
  case isTrue hw => exact (decodeHost_eq_some_iff_encode hwf hcls).mpr hw
  case isFalse hw => exact decodeHost_eq_none_of_code hcode fun j hj => hsole j hj ▸ hw

end Sys2Proof

namespace Sys2Proof.Machine

/-! ### Who writes the flags (R165) -/

/-- The value of a flag in a state (R37, R38). -/
def State.flag (s : State) : Flag → Bool
  | .txen => s.txen
  | .key => s.key

/-- The operation hears the modem and applies its flag writes: CAPT, or PLAY with `TXEN` = 1, each behind its
guard (R126, R142). -/
def HearsModem (i : Instr) (s : State) : Prop :=
  (i = .capt ∧ s.seq = 2#2) ∨ (i = .play ∧ s.seq = 3#2 ∧ s.txen = true)

theorem captured_flag (s : State) (f : Flag) :
    (captured s).flag f = writesTo f (s.flag f) (captured s).ports.mrspWrites := by
  rw [captured_eq]
  cases f <;> rfl

theorem played_flag_idle {s : State} (h : s.txen = false) (f : Flag) : (played s).flag f = s.flag f := by
  rw [played_idle s h]
  cases f <;> rfl

theorem played_flag_modulating {s : State} (h : s.txen = true) (f : Flag) :
    (played s).flag f = writesTo f (s.flag f) (played s).ports.mrspWrites := by
  rw [played_modulating s h]
  cases f <;> rfl

/-- An operation that runs leaves a flag alone, or is the flag's own host command, or applies to it the writes
that `MRSP` carries. -/
theorem Ran.flag_cases {i : Instr} {s t : State} (h : Ran i s t) (f : Flag) :
    t.flag f = s.flag f ∨ (i = f.command (t.flag f) ∧ s.seq = 0#2) ∨
      (HearsModem i s ∧ t.flag f = writesTo f (s.flag f) t.ports.mrspWrites) := by
  cases h with
  | stxe hs =>
    cases f with
    | txen => exact .inr (.inl ⟨rfl, hs⟩)
    | key => exact .inl rfl
  | skey hs =>
    cases f with
    | txen => exact .inl rfl
    | key => exact .inr (.inl ⟨rfl, hs⟩)
  | capt hs => exact .inr (.inr ⟨.inl ⟨rfl, hs⟩, captured_flag s f⟩)
  | play hs =>
    cases htx : s.txen with
    | false => exact .inl (played_flag_idle htx f)
    | true => exact .inr (.inr ⟨.inr ⟨rfl, hs, htx⟩, played_flag_modulating htx f⟩)
  | initPasses _ hc => exact .inl (by rw [initialized_of_none hc]; cases f <;> rfl)
  | _ => exact .inl (by cases f <;> simp [State.flag])

/-- A flag that an operation changes was written by its host command or by the modem. -/
theorem exec_flag_writer {i : Instr} {s t : State} (h : exec i s = .next t) {f : Flag} (hne : t.flag f ≠ s.flag f) :
    (i = f.command (t.flag f) ∧ s.seq = 0#2) ∨ (HearsModem i s ∧ ⟨f, t.flag f⟩ ∈ t.ports.mrspWrites) := by
  rcases exec_next h with rfl | hran
  · exact absurd rfl hne
  · obtain heq | hhost | ⟨hhears, hwrites⟩ := hran.flag_cases f
    · exact absurd heq hne
    · exact .inl hhost
    · rw [hwrites] at hne ⊢
      exact .inr ⟨hhears, mem_of_writesTo_ne hne⟩

/-- Settles O30: the writers of any flag, for `TXEN` and for `KEY`. -/
theorem flagWritersAreHostAndModem : Obligations.FlagWritersAreHostAndModem := by
  unfold Obligations.FlagWritersAreHostAndModem
  intro i s t h
  exact ⟨exec_flag_writer (f := .txen) h, exec_flag_writer (f := .key) h⟩

/-! ### The host port's guard (R64) -/

/-- Behind the host port's guard an effect takes place with `SEQ` = 0 (R64). -/
theorem guarded_hrdy_open {s : State} (f : State → State) (h : s.seq = 0#2) : guarded (hrdy s) f s = .next (f s) :=
  guarded_of_true f s (by simp [h])

theorem guarded_hrdy_closed {s : State} (f : State → State) (h : s.seq ≠ 0#2) : guarded (hrdy s) f s = .next s :=
  guarded_of_false f s (by simp [hrdy, h])

/-! ### STXE and SKEY (R161, R162) -/

/-- Settles O28: the guard is the host port's, and the words of each command are the two `encode` gives. -/
theorem flagWriteCommands : Obligations.FlagWriteCommands := by
  unfold Obligations.FlagWriteCommands
  intro b s w bw
  have hstxe : encode (.stxe b) = 0x02000000#32 ||| bw := encode_stxe b
  have hskey : encode (.skey b) = 0x03000000#32 ||| bw := encode_skey b
  rw [← hstxe, ← hskey]
  refine ⟨fun hs => ?ready, fun hs => ?held, fun hcode => ⟨?stxeWord, ?stxeOther⟩,
    fun hcode => ⟨?skeyWord, ?skeyOther⟩⟩
  case ready =>
    simp only [exec, execStxe, execSkey]
    exact ⟨guarded_hrdy_open _ hs, guarded_hrdy_open _ hs⟩
  case held =>
    simp only [exec, execStxe, execSkey]
    exact ⟨guarded_hrdy_closed _ hs, guarded_hrdy_closed _ hs⟩
  case stxeWord => exact decodeHost_command_iff .txen b w
  case stxeOther => exact decodeHost_eq_none_of_command_code (f := .txen) hcode
  case skeyWord => exact decodeHost_command_iff .key b w
  case skeyOther => exact decodeHost_eq_none_of_command_code (f := .key) hcode

/-! ### LTXE and LKEY (R163, R164) -/

/-- The response layout of R91 as the two words it can be. -/
theorem flagResponse_eq (b : Bool) : flagResponse b = if b then 1#32 else 0#32 := by
  cases b <;> rfl

/-- Settles O29: the guard is the host port's, and each read has the one word `encode` gives. -/
theorem flagReadCommands : Obligations.FlagReadCommands := by
  unfold Obligations.FlagReadCommands
  intro s w
  rw [← flagResponse_eq, ← flagResponse_eq, ← encode_ltxe, ← encode_lkey]
  refine ⟨fun hs => ?ready, fun hs => ?held, fun hcode => ?ltxeWord, fun hcode => ?lkeyWord⟩
  case ready =>
    simp only [exec, execLtxe, execLkey]
    exact ⟨guarded_hrdy_open _ hs, guarded_hrdy_open _ hs⟩
  case held =>
    simp only [exec, execLtxe, execLkey]
    exact ⟨guarded_hrdy_closed _ hs, guarded_hrdy_closed _ hs⟩
  case ltxeWord => exact decodeHost_of_sole_code rfl rfl (fun _ => eq_ltxe_of_op) hcode
  case lkeyWord => exact decodeHost_of_sole_code rfl rfl (fun _ => eq_lkey_of_op) hcode

end Sys2Proof.Machine

/-! The statements of 44_dispatcher: DISP (R171) and ACK (R173), the step that runs a placed instruction (R172), an
invocation from DISP to the end of PLAY (R175), who may move in between (R174, R175), and that in a fair run a pending
invocation is entered and a begun one ends (R171, R174). -/

namespace Sys2Proof.Machine

/-! ### DISP and ACK (R171, R173) -/

theorem exec_disp_ready {s : State} (h : dispReady s = true) :
    exec .disp s = .next (enterDispatcher (record .disp s)) :=
  guarded_of_true (fun s => enterDispatcher (record .disp s)) s h

theorem exec_disp_held {s : State} (h : dispReady s = false) : exec .disp s = .next s :=
  guarded_of_false (fun s => enterDispatcher (record .disp s)) s h

theorem exec_ack_ready {s : State} (hs : s.seq = 1#2) :
    exec .ack s = .next { record .ack s with tickf := false, seq := 2#2 } :=
  guarded_of_true (fun s => { record .ack s with tickf := false, seq := 2#2 }) s (by simp [hs])

theorem exec_ack_held {s : State} (hs : s.seq ≠ 1#2) : exec .ack s = .next s :=
  guarded_of_false (fun s => { record .ack s with tickf := false, seq := 2#2 }) s (by simp [hs])

/-- Settles O32: DISP's guard is `dispReady`, and its effect is the entry with its word recorded. -/
theorem dispEntersDispatcher : Obligations.DispEntersDispatcher := by
  unfold Obligations.DispEntersDispatcher
  intro s
  rw [← encode_disp]
  refine ⟨fun hf hie hs => exec_disp_ready ((dispReady_iff s).mpr ⟨⟨hf, hie⟩, hs⟩), fun hoff => exec_disp_held ?_⟩
  rw [Bool.eq_false_iff, Ne, dispReady_iff]
  rintro ⟨⟨hf, hie⟩, hs⟩
  simp [hf, hie, hs] at hoff

/-- Settles O33: ACK's guard is `SEQ` = 1, and its effect is the two registers with its word recorded. -/
theorem ackClearsTickFlag : Obligations.AckClearsTickFlag := by
  unfold Obligations.AckClearsTickFlag
  intro s
  rw [← encode_ack]
  exact ⟨exec_ack_ready, exec_ack_held⟩

/-! ### A placed instruction (R172, log 12) -/

/-- A word is its own number, cut to 32 bits. -/
theorem tableWord_toNat (w : Word) : tableWord 32 w.toNat = w := by
  rw [tableWord, Nat.mod_eq_of_lt w.isLt, BitVec.ofNat_toNat, BitVec.setWidth_eq]

/-- The word of an instruction is placed as the instruction. -/
theorem withFetchWord_encode {i : Instr} (hwf : i.wf = true) (s : State) :
    s.withFetchWord 32 (encode i).toNat = placeInstr i (encode i) s := by
  rw [State.withFetchWord, tableWord_toNat, placeWord, decodeEncodeRoundTrip i hwf]

/-- An instruction in the inner slot runs in the state without it. -/
theorem step_of_inner_encode {i : Instr} {s : State} (hwf : i.wf = true) (h : s.env.inner = some (encode i)) :
    step s = exec i { s with env := { s.env with inner := none } } := by
  rw [step_of_inner h, stepInner, decodeEncodeRoundTrip i hwf]

/-- A host command at the head of the port runs in the FOREGROUND's turn with `SEQ` = 0 (R64). -/
theorem step_of_host_encode {i : Instr} {s : State} {rest : List Turn} {ws : List Word} (hwf : i.wf = true)
    (hcls : i.op.cls = .host) (hi : s.env.inner = none) (ha : s.env.agenda = .foreground :: rest)
    (hcmd : s.env.hcmd = encode i :: ws) (hs : s.seq = 0#2) :
    step s = exec i { s with env := { s.env with agenda := rest, hcmd := ws } } := by
  have hdec : decodeHost (encode i) = some i := (decodeHost_eq_some_iff_encode hwf hcls).mpr rfl
  have hlegal := (exists_decodeHost_iff (encode i)).mp ⟨i, hdec⟩
  obtain ⟨j, hj, hstep⟩ := (hostPortAcceptsOnlyHostCommands s (encode i) rest ws hi ha hcmd hs).1 hlegal
  cases (decodeEncodeRoundTrip i hwf).symm.trans hj
  exact hstep

/-- Settles O7: the placing selects the instruction on the path of its class, which then runs it. -/
theorem stepRunsPlacedInstruction : Obligations.StepRunsPlacedInstruction := by
  unfold Obligations.StepRunsPlacedInstruction
  intro s i hwf
  rw [withFetchWord_encode hwf]
  have hturn (t : Turn) := turnRunsAgentOperation (placeInstr i (encode i) s) t s.env.agenda
  cases i with
  | init | stxe | skey | ltxe | lkey => exact step_of_host_encode hwf rfl rfl rfl rfl rfl
  | cfgclk | cfgadc | wrout | rdin | newin | reqout | trig => exact step_of_inner_encode hwf rfl
  | clk =>
    obtain ⟨htimer, -⟩ := hturn .timer rfl rfl
    exact htimer rfl
  | conv raw =>
    obtain ⟨-, hqueued, -⟩ := hturn .converter rfl rfl
    exact hqueued rfl rfl raw s.env.ain rfl
  | disp =>
    obtain ⟨-, -, -, -, hdisp, -⟩ := hturn .dispatcher rfl rfl
    exact hdisp rfl rfl rfl rfl
  | ack =>
    obtain ⟨-, -, -, -, -, -, hack, -⟩ := hturn .dispatcher rfl rfl
    exact hack rfl rfl
  | capt =>
    obtain ⟨-, -, -, -, -, -, -, hcapt, -⟩ := hturn .dispatcher rfl rfl
    exact hcapt rfl rfl
  | play =>
    obtain ⟨-, -, -, -, -, -, -, -, hplay⟩ := hturn .dispatcher rfl rfl
    exact hplay rfl rfl

/-! ### An invocation from DISP to the end of PLAY (R175) -/

/-- The words PLAY appends: REQOUT only with `TXEN` = 1, and WROUT of the byte it leaves in `OUT` (R142). -/
theorem played_words (s : State) :
    (played s).hist = s.hist ++ encode .play :: (if s.txen then [encode (.reqout s.modem)] else []) ++
      [encode (.wrout (played s).out)] := by
  cases h : s.txen with
  | false => simp [played_idle s h]
  | true => simp [played_modulating s h]

/-- The byte PLAY selects when the modem's answer is queued (R142). -/
theorem played_out {s : State} {a : Byte × List FlagWrite} {rest : List (Byte × List FlagWrite)}
    (hq : s.env.reqouts = a :: rest) :
    (played s).out = if s.txen then modulatingByte a.1 else idleByte s.key := by
  cases h : s.txen with
  | false => simp [played_idle s h]
  | true => simp [played_modulating s h, reqoutAnswer_of_cons hq]

/-- PLAY leaves the sample and the flags of the service, ends the invocation, and takes no turn. -/
theorem played_ends (s : State) :
    (played s).seq = 0#2 ∧ (played s).adcf = s.adcf ∧ (played s).tickf = s.tickf ∧
      (played s).sample = s.sample ∧ (played s).env.agenda = s.env.agenda := by
  cases h : s.txen with
  | false => simp [played_idle s h]
  | true => simp [played_modulating s h]

/-- A turn at the head of the agenda is the first step of a run. -/
theorem run_of_agenda {s t : State} {u : Turn} {rest : List Turn} (k : Nat) (hi : s.env.inner = none)
    (ha : s.env.agenda = u :: rest)
    (h : stepTurn u { s with env := { s.env with agenda := rest } } = .next t) :
    Host.Core.run core (k + 1) s = Host.Core.run core k t := by
  have hstep : core.step s = .next t := (step_of_agenda hi ha).trans h
  simp only [Host.Core.run, hstep]

/-- The state with `l` as the turns to come (log 1). -/
def State.withAgenda (s : State) (l : List Turn) : State := { s with env := { s.env with agenda := l } }

/-- What DISP and ACK make of a state with a pending request (R171, R173). -/
def State.afterAck (s : State) : State :=
  { record .ack (enterDispatcher (record .disp s)) with tickf := false, seq := 2#2 }

/-- CAPT takes no turn from the agenda, and its effect depends on none. -/
theorem captured_withAgenda (s : State) (l : List Turn) :
    captured (s.withAgenda l) = (captured s).withAgenda l := by
  cases h : s.env.newins with
  | nil => simp [captured_eq, State.withAgenda, Env.newinAnswer, Env.popNewin, Env.countDraw, h]
  | cons fw rest => simp [captured_eq, State.withAgenda, Env.newinAnswer, Env.popNewin, h]

/-- Four turns of the DISPATCHER carry out DISP, ACK, CAPT and PLAY (R174, R175). -/
theorem run_invocation {s : State} {rest : List Turn} (hi : s.env.inner = none) (hd : dispReady s = true)
    (ha : s.env.agenda = .dispatcher :: .dispatcher :: .dispatcher :: .dispatcher :: rest) :
    Host.Core.run core 4 s = .next (played (captured (s.withAgenda rest).afterAck)) := by
  have hcapt (l : List Turn) : captured (s.withAgenda l).afterAck = (captured s.afterAck).withAgenda l :=
    captured_withAgenda s.afterAck l
  calc Host.Core.run core 4 s
    _ = Host.Core.run core 3
          (enterDispatcher (record .disp (s.withAgenda (.dispatcher :: .dispatcher :: .dispatcher :: rest)))) :=
      run_of_agenda 3 hi ha (stepTurn_disp_ready hd)
    _ = Host.Core.run core 2 (s.withAgenda (.dispatcher :: .dispatcher :: rest)).afterAck :=
      run_of_agenda 2 hi rfl (stepTurn_ack_ready rfl)
    _ = Host.Core.run core 1 (captured (s.withAgenda (.dispatcher :: rest)).afterAck) :=
      run_of_agenda 1 hi rfl (stepTurn_capt_ready rfl)
    _ = .next (played (captured (s.withAgenda rest).afterAck)) := by
      rw [hcapt, hcapt]
      exact run_of_agenda 0 ((popNewin_inner _).trans hi) rfl (stepTurn_play_ready rfl)

/-- The state in which PLAY finds the invocation when the modem's answer `fw` to NEWIN is queued (R126, R175). -/
theorem captured_afterAck {s : State} {fw : List FlagWrite} {news : List (List FlagWrite)}
    (hq : s.env.newins = fw :: news) :
    let x : Int := ((s.adcData.toNat / 4 : Nat) : Int) - 128
    captured s.afterAck =
      { s with
        adcf := false, tickf := false, seq := 3#2, sample := tc16 x,
        txen := writesTo .txen s.txen fw, key := writesTo .key s.key fw,
        hist := s.hist ++
          [encode .disp, encode .ack, encode .capt, encode .rdin, encode (.newin s.modem x)],
        ports := (captured s.afterAck).ports, env := { s.env with newins := news } } := by
  simp [captured_eq, State.afterAck, enterDispatcher, record, recordWord, recenter_read, newinAnswer_of_cons hq,
    popNewin_of_cons hq]

/-- Settles O34: the four turns run DISP, ACK, CAPT and PLAY, and PLAY finds the flags as the modem's answer to NEWIN
left them. -/
theorem invocationRunsToCompletion : Obligations.InvocationRunsToCompletion := by
  unfold Obligations.InvocationRunsToCompletion
  intro s rest fw news v fw' reqs hi hf hie hs ha hnews hreqs x txen key byte
  refine ⟨_, run_invocation hi ((dispReady_iff s).mpr ⟨⟨hf, hie⟩, hs⟩) ha, ?_⟩
  have hp := captured_afterAck (s := s.withAgenda rest) hnews
  generalize captured (s.withAgenda rest).afterAck = p at hp ⊢
  have htxen : p.txen = txen := by rw [hp]; exact writesTo_eq_foldl .txen s.txen fw
  have hkey : p.key = key := by rw [hp]; exact writesTo_eq_foldl .key s.key fw
  have hbyte : (played p).out = byte := by
    have hq : p.env.reqouts = (v, fw') :: reqs := by rw [hp]; exact hreqs
    rw [played_out hq, htxen, hkey]
    rfl
  have hhist : p.hist = s.hist ++
      [encode .disp, encode .ack, encode .capt, encode .rdin, encode (.newin s.modem x)] := by rw [hp]; rfl
  have hmodem : p.modem = s.modem := by rw [hp]; rfl
  obtain ⟨hend, hadcf, htickf, hsample, hagenda⟩ := played_ends p
  refine ⟨hend, ?adcf, ?tickf, ?sample, hbyte, ?agenda, ?hist⟩
  case adcf => rw [hadcf, hp]
  case tickf => rw [htickf, hp]
  case sample => rw [hsample, hp]; rfl
  case agenda => rw [hagenda, hp]; rfl
  case hist =>
    rw [played_words, hbyte, hhist, htxen, hmodem, ← encode_disp, ← encode_ack, ← encode_capt, ← encode_rdin,
      ← encode_play]
    simp

/-! ### Who moves during an invocation (R174, R175) -/

/-- Inside an invocation no tick comes, so CLK records its word and counts at most (R104, R207). -/
theorem execClk_of_seq {s t : State} (h : execClk s = .next t) (hs : s.seq ≠ 0#2) :
    ∃ cnt, t = { record .clk s with cnt } := by
  rcases execClk_next h with ⟨-, rfl⟩ | ⟨-, -, rfl⟩ | ⟨-, -, hclosed, -⟩
  · exact ⟨s.cnt, rfl⟩
  · exact ⟨_, rfl⟩
  · have hopen : serviceOpen s = true := (serviceOpen_iff s).mpr (.inr hs)
    simp [hopen] at hclosed

/-- Inside an invocation, with no conversion in flight, a turn of any agent but the DISPATCHER is a CLK or holds the
agent (R64, R124, R174). -/
theorem stepTurn_during_invocation {u : Turn} {s t : State} (h : stepTurn u s = .next t) (hs : s.seq ≠ 0#2)
    (hidle : s.adcBusy = false) (hdisp : u ≠ .dispatcher) (hreset : u ≠ .resetLine) :
    t = s ∨ ∃ cnt, t = { record .clk s with cnt } := by
  cases u with
  | dispatcher => exact absurd rfl hdisp
  | resetLine => exact absurd rfl hreset
  | timer => exact .inr (execClk_of_seq h hs)
  | converter =>
    cases (stepTurn_converter_held hidle).symm.trans h
    exact .inl rfl
  | foreground =>
    cases (stepTurn_foreground_held hs).symm.trans h
    exact .inl rfl

/-- Settles O35: with `SEQ` ≠ 0 no conversion is in flight (R44), so the turn is a CLK or holds its agent. -/
theorem onlyClkInterleavesInvocation : Obligations.OnlyClkInterleavesInvocation := by
  unfold Obligations.OnlyClkInterleavesInvocation
  rintro s t ⟨⟨-, -, -, -, hchain, -⟩, -, -, hinner⟩ hs hdisp hreset hstep
  obtain ⟨hidle, -⟩ := hchain.quiet_of_seq hs
  rw [step_of_turn hinner] at hstep
  rw [← encode_clk]
  rcases stepTurn_during_invocation hstep hs hidle hdisp hreset with rfl | ⟨cnt, rfl⟩
  · exact ⟨.inl rfl, rfl, rfl, rfl, rfl, rfl, popTurn_hcmd s.env⟩
  · exact ⟨.inr rfl, rfl, rfl, rfl, rfl, rfl, popTurn_hcmd s.env⟩

/-! ### A pending invocation is entered, and a begun one ends (R171, R174) -/

/-- The DISPATCHER's turn with a pending request enters, whatever the environment offers. -/
theorem StepsBy.eq_entered {s s' : State} (h : StepsBy .dispatcher s s') (hd : dispReady s = true) :
    ∃ e : Env, s' = enterDispatcher (record .disp { s with env := e }) := by
  obtain ⟨e, hturn⟩ := h.turn
  cases (stepTurn_disp_ready (s := { s with env := e }) hd).symm.trans hturn
  exact ⟨e, rfl⟩

/-- The DISPATCHER's turn with `SEQ` = 3 is PLAY, whatever the environment offers. -/
theorem StepsBy.eq_played {s s' : State} (h : StepsBy .dispatcher s s') (hs : s.seq = 3#2) :
    ∃ e : Env, s' = played { s with env := e } := by
  obtain ⟨e, hturn⟩ := h.turn
  cases (stepTurn_play_ready (s := { s with env := e }) hs).symm.trans hturn
  exact ⟨e, rfl⟩

/-- Settles O52: only the DISPATCHER's turn or RESET ends the wait, so fairness brings one of the two. -/
theorem pendingInvocationIsEntered : Obligations.PendingInvocationIsEntered := by
  unfold Obligations.PendingInvocationIsEntered
  intro σ r n ⟨hrun, hfair⟩ hf hie hs
  obtain ⟨m, hm, hready, hreset | hagent⟩ := eventually_taken hfair .disp ((dispReady_iff (r n)).mpr ⟨⟨hf, hie⟩, hs⟩)
    fun m _ ho ht hreset => (hrun m).ready_kept ho ht hreset
  · exact ⟨m, hm, .inl hreset⟩
  · have hstep := hrun m
    rw [hagent] at hstep
    obtain ⟨e, heq⟩ := hstep.eq_entered hready
    obtain ⟨⟨hf', -⟩, hs'⟩ := (dispReady_iff (r m)).mp hready
    refine ⟨m, hm, .inr ⟨hagent, hs', hf', ?_⟩⟩
    rw [heq, ← encode_disp]
    exact ⟨rfl, rfl, rfl⟩

/-- Without RESET a begun invocation comes to its PLAY, through the ACK and CAPT still to come (R174). -/
theorem FairRun.reaches_play {σ : Nat → Turn} {r : Nat → State} {n : Nat} (hf : FairRun σ r)
    (hno : ∀ m, n ≤ m → σ m ≠ .resetLine) (hs : (r n).seq ≠ 0#2) : ∃ m, n ≤ m ∧ (r m).seq = 3#2 := by
  rcases romFetch_cases (r n).seq with ⟨hseq, -⟩ | ⟨hseq, -⟩ | ⟨hseq, -⟩ | ⟨hseq, -⟩
  · exact absurd hseq hs
  · obtain ⟨k, m, hk, hkm, -, ⟨-, hplay, -⟩, -⟩ := hf.served_of_entered hno hseq
    exact ⟨m, by omega, hplay⟩
  · obtain ⟨m, hm, hcapt, -, hready⟩ := hf.first_turn hno .capt (by simp [hseq])
    exact ⟨m + 1, by omega, hcapt.seq_of_capt (by simpa using hready m hm le_rfl)⟩
  · exact ⟨n, le_rfl, hseq⟩

/-- Settles O53: without a RESET the invocation comes to its PLAY, and fairness brings the DISPATCHER's turn. -/
theorem begunInvocationEnds : Obligations.BegunInvocationEnds := by
  unfold Obligations.BegunInvocationEnds
  intro σ r n hf hs
  by_cases hreset : ∃ m, n ≤ m ∧ σ m = .resetLine
  · obtain ⟨m, hm, hreset⟩ := hreset
    exact ⟨m, hm, .inl hreset⟩
  · have hno : ∀ m, n ≤ m → σ m ≠ .resetLine := fun m hm h => hreset ⟨m, hm, h⟩
    obtain ⟨k, hk, hthree⟩ := hf.reaches_play hno hs
    obtain ⟨m, hm, hstep, hagent, hready⟩ := hf.first_turn (fun j hj => hno j (hk.trans hj)) .play (by simp [hthree])
    have hplay : (r m).seq = 3#2 := by simpa using hready m hm le_rfl
    obtain ⟨e, heq⟩ := hstep.eq_played hplay
    obtain ⟨hend, -⟩ := played_ends { r m with env := e }
    refine ⟨m, hk.trans hm, .inr ⟨hagent, hplay, ?_⟩⟩
    rw [heq, ← encode_play]
    exact ⟨hend, _, played_words _⟩

end Sys2Proof.Machine

/-! The statements of 45_host_init: the four checks of INIT (R187), its effects and their frame (R188, R189), and
that a session keeps the configuration it started with (R190, R191). -/

namespace Sys2Proof.Machine

/-! ### What INIT answers (R186) -/

theorem exec_init_held {ch : Channel} {hd : Handle} {s : State} (hs : s.seq ≠ 0#2) :
    exec (.init ch hd) s = .next s :=
  guarded_hrdy_closed _ hs

theorem exec_init_ready {ch : Channel} {hd : Handle} {s : State} (hs : s.seq = 0#2) :
    exec (.init ch hd) s = .next (initialized ch hd s) :=
  guarded_hrdy_open _ hs

theorem exec_init_fails {ch : Channel} {hd : Handle} {s : State} {c : Cause} (hs : s.seq = 0#2)
    (hc : initCause ch hd s = some c) :
    exec (.init ch hd) s = .next (raiseFault c (record (.init ch hd) s)) := by
  rw [exec_init_ready hs, initialized_of_some hc]

/-! ### The checks (R187) -/

section Checks

variable {ch : Channel} {hd : Handle} {s : State}

theorem initCause_of_nullHandle (h : hd = 0#8) : initCause ch hd s = some .cfgModem := if_pos h

theorem initCause_of_badChannel (hm : hd ≠ 0#8) (h : s.params.nChan ≤ ch.toNat) :
    initCause ch hd s = some .cfgChannel := by
  rw [initCause, if_neg hm, if_pos h]

theorem initCause_of_badDivisor (hm : hd ≠ 0#8) (hch : ch.toNat < s.params.nChan)
    (h : reloadFits s.params = false) : initCause ch hd s = some .cfgDivisor := by
  rw [initCause, if_neg hm, if_neg hch.not_ge, if_pos h]

theorem initCause_of_otherSession (hm : hd ≠ 0#8) (hch : ch.toNat < s.params.nChan)
    (hfits : reloadFits s.params = true) (hs : s.inited = true) (h : ch ≠ s.chan ∨ hd ≠ s.modem) :
    initCause ch hd s = some .cfgReinit := by
  have hother : (s.inited && (ch != s.chan || hd != s.modem)) = true := by simpa [hs] using h
  rw [initCause, if_neg hm, if_neg hch.not_ge, if_neg (by simp [hfits]), if_pos hother]

end Checks

/-- Settles O37: each clause makes one check the first that fails, and that check's cause is raised. -/
theorem initRejectsByFirstFailingCheck : Obligations.InitRejectsByFirstFailingCheck := by
  unfold Obligations.InitRejectsByFirstFailingCheck
  intro ch hd s
  rw [← encode_init]
  intro w faulted badDivisor
  have hfits : reloadFits s.params = true ↔ ¬ badDivisor := by
    rw [reloadFits_iff, not_or, not_lt, not_lt]
  refine ⟨fun hs hm => ?modem, fun hs hm hch => ?channel, fun hs hm hch hbad => ?divisor,
    fun hs hm hch hgood hin hne => ?reinit, exec_init_held⟩
  case modem => exact exec_init_fails hs (initCause_of_nullHandle hm)
  case channel => exact exec_init_fails hs (initCause_of_badChannel hm hch)
  case divisor =>
    have hno : reloadFits s.params = false := Bool.eq_false_iff.mpr fun h => hfits.mp h hbad
    exact exec_init_fails hs (initCause_of_badDivisor hm hch hno)
  case reinit => exact exec_init_fails hs (initCause_of_otherSession hm hch (hfits.mpr hgood) hin hne)

/-! ### The effects (R188, R189) -/

/-- Settles O38: with no failing check, the effects of CFGCLK and CFGADC and INIT's own three writes. -/
theorem initStartsSession : Obligations.InitStartsSession := by
  unfold Obligations.InitStartsSession
  intro ch hd s hs hm hch hlow hhigh hsame
  have hc : initCause ch hd s = none :=
    initCause_eq_none.mpr ⟨hm, hch, (reloadFits_iff _).mpr ⟨hlow, hhigh⟩, hsame⟩
  rw [exec_init_ready hs, initialized_of_none hc, encode_init, encode_cfgclk, encode_cfgadc]
  rfl

/-! ### Repeated initialization (R190, R191) -/

/-- In a session the divisor fits, and it is what `RELOAD` holds (R44 item 2). -/
theorem reloadWord_of_session {s : State} (h : (s.reload.toNat : Int) = reloadConst s.params) :
    reloadFits s.params = true ∧ reloadWord s.params = s.reload := by
  have hlt := s.reload.isLt
  have hfits : reloadFits s.params = true := (reloadFits_iff _).mpr (by omega)
  have hword := toNat_reloadWord hfits
  exact ⟨hfits, BitVec.eq_of_toNat_eq (by omega)⟩

/-- The session's own operands pass the four checks again. -/
theorem BlockInv.initCause_of_session {s : State} (h : BlockInv s) (hs : s.inited = true) :
    initCause s.chan s.modem s = none := by
  obtain ⟨⟨-, hses, -⟩, -⟩ := h
  obtain ⟨hmodem, hchan, hreload, -⟩ := hses hs
  exact initCause_eq_none.mpr ⟨hmodem, hchan, (reloadWord_of_session hreload).1, fun _ => ⟨rfl, rfl⟩⟩

/-- Repeated with the session's own operands, INIT writes every configuration register with the value it has. -/
theorem BlockInv.initialized_of_session {s : State} (h : BlockInv s) (hs : s.inited = true) :
    initialized s.chan s.modem s =
      { s with
        cnt := 0#16
        hist := s.hist ++ [encode (.init s.chan s.modem), encode (.cfgclk s.reload), encode (.cfgadc s.chan)] } := by
  rw [initialized_of_none (h.initCause_of_session hs)]
  obtain ⟨⟨⟨htmr, hadc, hate, hie, href, hout⟩, hses, -⟩, -⟩ := h
  obtain ⟨-, -, hreload, hpin, hdis⟩ := hses hs
  obtain ⟨-, hword⟩ := reloadWord_of_session hreload
  simp [hword, chanBit, hpin, hdis, htmr, hadc, hate, hie, href, hout, hs]

/-- Settles O39: the session's own operands pass, and only `CNT` and the history change. -/
theorem initIsIdempotent : Obligations.InitIsIdempotent := by
  unfold Obligations.InitIsIdempotent
  intro s hinv hs hq
  rw [exec_init_ready hq, hinv.initialized_of_session hs]

/-- In a session an operation that a turn brings keeps the configuration: an INIT that passes has the session's
own operands. -/
theorem Ran.sameConfig {i : Instr} {s t : State} (h : Ran i s t) (hinv : BlockInv s) (hs : s.inited = true)
    (hi : i.op ∉ [Op.cfgclk, .cfgadc]) : SameConfig s t := by
  rcases h.config_cases hi with hcfg | ⟨ch, hd, hc, rfl⟩
  · exact hcfg
  · obtain ⟨-, -, -, hsame⟩ := initCause_eq_none.mp hc
    obtain ⟨rfl, rfl⟩ := hsame hs
    rw [hinv.initialized_of_session hs]
    constructor <;> rfl

/-- In a session a step but RESET keeps the configuration, whatever it takes from the environment. -/
theorem step_sameConfig {s t : State} (hinv : BlockInv s) (hs : s.inited = true)
    (hreset : s.env.turn ≠ .resetLine) (h : step s = .next t) :
    ∃ e : Env, SameConfig { s with env := e } t := by
  have ⟨_, _, _, hinner⟩ := hinv
  obtain ⟨e, he, rfl | ⟨i, hoffer, hexec⟩ | ⟨-, -, w, -, rfl⟩ | ⟨hturn, -⟩⟩ := step_next hinner h
  · exact ⟨e, by constructor <;> rfl⟩
  · refine ⟨e, ?_⟩
    rcases exec_next hexec with rfl | hran
    · constructor <;> rfl
    · exact hran.sameConfig (hinv.withEnv he) hs fun hop =>
        op_of_offer hoffer (List.mem_append_left [Op.wrout, .trig] hop)
  · exact ⟨e, by constructor <;> rfl⟩
  · exact absurd hturn hreset

/-- Settles O40: in a session every step but RESET keeps the configuration, `INITED` among it. -/
theorem sessionConfigurationImmutable : Obligations.SessionConfigurationImmutable := by
  unfold Obligations.SessionConfigurationImmutable
  intro s t hinv hs hreset hstep
  obtain ⟨e, hcfg⟩ := step_sameConfig hinv hs hreset hstep
  exact ⟨hcfg.chan, hcfg.modem, hcfg.reload, hcfg.inited.trans hs, hcfg.tmrEn, hcfg.adcEn, hcfg.adcRef,
    hcfg.adcAte, hcfg.adcIe, hcfg.pinIn, hcfg.dinDis, hcfg.outEn⟩

end Sys2Proof.Machine

/-! The statements of 60_exceptions: a step that sets a bit of `FAULT` records its word and has no other effect
(R200, R214). -/

namespace Sys2Proof.Machine

/-- The one operation that changes `FAULT` is an INIT with a failing check (R187). -/
theorem Ran.eq_raiseFault_of_fault_ne {i : Instr} {s t : State} (h : Ran i s t) (hne : t.fault ≠ s.fault) :
    s.seq = 0#2 ∧ ∃ c : Cause, t = raiseFault c (record i s) := by
  cases h with
  | @initFaults _ _ _ c hs _ => exact ⟨hs, c, rfl⟩
  | initPasses _ hc => exact absurd (by rw [initialized_of_none hc]) hne
  | capt _ => exact absurd (by rw [captured_eq]) hne
  | play _ =>
    obtain ⟨_, _, _, _, _, _, -, -, -, heq⟩ := played_frame s
    exact absurd (by rw [heq]) hne
  | _ => exact absurd (by simp) hne

theorem exec_eq_raiseFault_of_fault_ne {i : Instr} {s t : State} (h : exec i s = .next t)
    (hne : t.fault ≠ s.fault) : s.seq = 0#2 ∧ ∃ c : Cause, t = raiseFault c (record i s) := by
  rcases exec_next h with rfl | hran
  · exact absurd rfl hne
  · exact hran.eq_raiseFault_of_fault_ne hne

/-- Settles O43: such a step carries out a failing INIT, or the host port rejects a word; each records one word
and raises one bit. -/
theorem faultingStepChangesOnlyFault : Obligations.FaultingStepChangesOnlyFault := by
  unfold Obligations.FaultingStepChangesOnlyFault
  intro s t hreset h hne
  cases hi : s.env.inner with
  | some w =>
    rw [step_of_inner hi] at h
    obtain ⟨i, -, hexec⟩ := stepInner_next h
    obtain ⟨hs, c, rfl⟩ := exec_eq_raiseFault_of_fault_ne hexec hne
    exact ⟨hs, encode i, rfl⟩
  | none =>
    obtain ⟨e, -, rfl | ⟨i, -, hexec⟩ | ⟨hs, -, w, -, rfl⟩ | ⟨hturn, -⟩⟩ := step_next hi h
    · exact absurd rfl hne
    · obtain ⟨hs, c, rfl⟩ := exec_eq_raiseFault_of_fault_ne hexec hne
      exact ⟨hs, encode i, rfl⟩
    · exact ⟨hs, w, rfl⟩
    · exact absurd hturn (hreset hi)

end Sys2Proof.Machine

/-! The statement of 70_reset_and_hazards: the RESET step (R230, R45). -/

namespace Sys2Proof.Machine

theorem stepTurn_resetLine (s : State) : stepTurn .resetLine s = .next (resetLine s) := rfl

/-- Settles O11: in a RESET turn the step is `resetLine`, whose two unspecified registers take the values drawn
at `s.env.draws`. -/
theorem resetStepResetsRegisters : Obligations.ResetStepResetsRegisters := by
  unfold Obligations.ResetStepResetsRegisters
  intro s rest hi ha
  refine ⟨Config.freeRaw s.env.draws, Config.freeSample s.env.draws, ?_⟩
  rw [step_of_agenda hi ha, stepTurn_resetLine]
  rfl

end Sys2Proof.Machine
